-- ==== Sys2Proof/Word.lean ====
section
/-! DEFINITION. The machine's two word types (R5 "Notation", R6 of 00_scope.md): `u8` and `u16`. -/

namespace Sys2Proof

/-- `u8`: the width of every register half, memory location and bus access (R6). -/
abbrev Byte := BitVec 8

/-- `u16`: the width of SP, PC, the register pairs and every address (R6). -/
abbrev Word := BitVec 16

/-- `hi ++ lo` of 00_scope.md section 5: the 16-bit value `hi*256 + lo`. -/
def Word.ofBytes (hi lo : Byte) : Word := hi ++ lo

/-- `v[15:8]`. -/
def Word.hi (w : Word) : Byte := w.extractLsb' 8 8

/-- `v[7:0]`. -/
def Word.lo (w : Word) : Byte := w.extractLsb' 0 8

end Sys2Proof
end

