-- ==== Sys2Proof/WellFormed.lean ====
section
/-! DEFINITION. Which terms of Instr name an instruction of the machine. Operand widths are in the types; the one row of
the table that is no instruction on its own is PREFIX CB (R128 of 30_encoding.md; log 8). -/

namespace Sys2Proof

/-- Every row names an instruction of its own but for PREFIX CB: "It is not an instruction on its own: it and the following
byte form one 2-byte instruction" (R128), whose row is the CB-page row. -/
def Instr.wf : Instr → Bool
  | .prefix_CB _ => false
  | _ => true

end Sys2Proof
end

