-- ==== Sys2Proof/Decode.lean ====
section
/-! DEFINITION. The decoder, read from the opcode grids of R122 to R124, and after it the encoder, written from the bit
patterns of the encoding rules (R111 to R121): two readings of the encoding, which the round trip compares. -/

namespace Sys2Proof

/-- Cell of a 16 × 16 grid: row `op[7:4]`, column `op[3:0]` (R122, R124). -/
def gridAt {α : Type} (grid : List (List α)) (op : Byte) (dflt : α) : α :=
  (grid.getD (op.toNat / 16) []).getD (op.toNat % 16) dflt

/-- Row 0x of R124's grid. -/
def cbRow0 : List Instr := [
   .rlc_B, .rlc_C, .rlc_D, .rlc_E, .rlc_H, .rlc_L, .rlc_atHL, .rlc_A,
   .rrc_B, .rrc_C, .rrc_D, .rrc_E, .rrc_H, .rrc_L, .rrc_atHL, .rrc_A]

/-- Row 1x of R124's grid. -/
def cbRow1 : List Instr := [
   .rl_B, .rl_C, .rl_D, .rl_E, .rl_H, .rl_L, .rl_atHL, .rl_A,
   .rr_B, .rr_C, .rr_D, .rr_E, .rr_H, .rr_L, .rr_atHL, .rr_A]

/-- Row 2x of R124's grid. -/
def cbRow2 : List Instr := [
   .sla_B, .sla_C, .sla_D, .sla_E, .sla_H, .sla_L, .sla_atHL, .sla_A,
   .sra_B, .sra_C, .sra_D, .sra_E, .sra_H, .sra_L, .sra_atHL, .sra_A]

/-- Row 3x of R124's grid. -/
def cbRow3 : List Instr := [
   .swap_B, .swap_C, .swap_D, .swap_E, .swap_H, .swap_L, .swap_atHL, .swap_A,
   .srl_B, .srl_C, .srl_D, .srl_E, .srl_H, .srl_L, .srl_atHL, .srl_A]

/-- Row 4x of R124's grid. -/
def cbRow4 : List Instr := [
   .bit_0_B, .bit_0_C, .bit_0_D, .bit_0_E, .bit_0_H, .bit_0_L, .bit_0_atHL, .bit_0_A,
   .bit_1_B, .bit_1_C, .bit_1_D, .bit_1_E, .bit_1_H, .bit_1_L, .bit_1_atHL, .bit_1_A]

/-- Row 5x of R124's grid. -/
def cbRow5 : List Instr := [
   .bit_2_B, .bit_2_C, .bit_2_D, .bit_2_E, .bit_2_H, .bit_2_L, .bit_2_atHL, .bit_2_A,
   .bit_3_B, .bit_3_C, .bit_3_D, .bit_3_E, .bit_3_H, .bit_3_L, .bit_3_atHL, .bit_3_A]

/-- Row 6x of R124's grid. -/
def cbRow6 : List Instr := [
   .bit_4_B, .bit_4_C, .bit_4_D, .bit_4_E, .bit_4_H, .bit_4_L, .bit_4_atHL, .bit_4_A,
   .bit_5_B, .bit_5_C, .bit_5_D, .bit_5_E, .bit_5_H, .bit_5_L, .bit_5_atHL, .bit_5_A]

/-- Row 7x of R124's grid. -/
def cbRow7 : List Instr := [
   .bit_6_B, .bit_6_C, .bit_6_D, .bit_6_E, .bit_6_H, .bit_6_L, .bit_6_atHL, .bit_6_A,
   .bit_7_B, .bit_7_C, .bit_7_D, .bit_7_E, .bit_7_H, .bit_7_L, .bit_7_atHL, .bit_7_A]

/-- Row 8x of R124's grid. -/
def cbRow8 : List Instr := [
   .res_0_B, .res_0_C, .res_0_D, .res_0_E, .res_0_H, .res_0_L, .res_0_atHL, .res_0_A,
   .res_1_B, .res_1_C, .res_1_D, .res_1_E, .res_1_H, .res_1_L, .res_1_atHL, .res_1_A]

/-- Row 9x of R124's grid. -/
def cbRow9 : List Instr := [
   .res_2_B, .res_2_C, .res_2_D, .res_2_E, .res_2_H, .res_2_L, .res_2_atHL, .res_2_A,
   .res_3_B, .res_3_C, .res_3_D, .res_3_E, .res_3_H, .res_3_L, .res_3_atHL, .res_3_A]

/-- Row Ax of R124's grid. -/
def cbRowA : List Instr := [
   .res_4_B, .res_4_C, .res_4_D, .res_4_E, .res_4_H, .res_4_L, .res_4_atHL, .res_4_A,
   .res_5_B, .res_5_C, .res_5_D, .res_5_E, .res_5_H, .res_5_L, .res_5_atHL, .res_5_A]

/-- Row Bx of R124's grid. -/
def cbRowB : List Instr := [
   .res_6_B, .res_6_C, .res_6_D, .res_6_E, .res_6_H, .res_6_L, .res_6_atHL, .res_6_A,
   .res_7_B, .res_7_C, .res_7_D, .res_7_E, .res_7_H, .res_7_L, .res_7_atHL, .res_7_A]

/-- Row Cx of R124's grid. -/
def cbRowC : List Instr := [
   .set_0_B, .set_0_C, .set_0_D, .set_0_E, .set_0_H, .set_0_L, .set_0_atHL, .set_0_A,
   .set_1_B, .set_1_C, .set_1_D, .set_1_E, .set_1_H, .set_1_L, .set_1_atHL, .set_1_A]

/-- Row Dx of R124's grid. -/
def cbRowD : List Instr := [
   .set_2_B, .set_2_C, .set_2_D, .set_2_E, .set_2_H, .set_2_L, .set_2_atHL, .set_2_A,
   .set_3_B, .set_3_C, .set_3_D, .set_3_E, .set_3_H, .set_3_L, .set_3_atHL, .set_3_A]

/-- Row Ex of R124's grid. -/
def cbRowE : List Instr := [
   .set_4_B, .set_4_C, .set_4_D, .set_4_E, .set_4_H, .set_4_L, .set_4_atHL, .set_4_A,
   .set_5_B, .set_5_C, .set_5_D, .set_5_E, .set_5_H, .set_5_L, .set_5_atHL, .set_5_A]

/-- Row Fx of R124's grid. -/
def cbRowF : List Instr := [
   .set_6_B, .set_6_C, .set_6_D, .set_6_E, .set_6_H, .set_6_L, .set_6_atHL, .set_6_A,
   .set_7_B, .set_7_C, .set_7_D, .set_7_E, .set_7_H, .set_7_L, .set_7_atHL, .set_7_A]

/-- R124: the CB page, row `cb[7:4]`, column `cb[3:0]`. -/
def cbGrid : List (List Instr) := [
   cbRow0, cbRow1, cbRow2, cbRow3, cbRow4, cbRow5, cbRow6, cbRow7,
   cbRow8, cbRow9, cbRowA, cbRowB, cbRowC, cbRowD, cbRowE, cbRowF]

/-- The instruction of a CB opcode (R121, R124). -/
def cbInstr (cb : Byte) : Instr := gridAt cbGrid cb .nop

/-- Row 0x of R122's grid. -/
def primaryRow0 (n : Byte) (nn : Word) : List Instr := [
   .nop, .ld_BC_nn nn, .ld_atBC_A, .inc_BC,
   .inc_B, .dec_B, .ld_B_n n, .rlca,
   .ld_at_nn_SP nn, .add_HL_BC, .ld_A_atBC, .dec_BC,
   .inc_C, .dec_C, .ld_C_n n, .rrca]

/-- Row 1x of R122's grid. -/
def primaryRow1 (n : Byte) (nn : Word) : List Instr := [
   .stop n, .ld_DE_nn nn, .ld_atDE_A, .inc_DE,
   .inc_D, .dec_D, .ld_D_n n, .rla,
   .jr_e n, .add_HL_DE, .ld_A_atDE, .dec_DE,
   .inc_E, .dec_E, .ld_E_n n, .rra]

/-- Row 2x of R122's grid. -/
def primaryRow2 (n : Byte) (nn : Word) : List Instr := [
   .jr_NZ_e n, .ld_HL_nn nn, .ld_atHLi_A, .inc_HL,
   .inc_H, .dec_H, .ld_H_n n, .daa,
   .jr_Z_e n, .add_HL_HL, .ld_A_atHLi, .dec_HL,
   .inc_L, .dec_L, .ld_L_n n, .cpl]

/-- Row 3x of R122's grid. -/
def primaryRow3 (n : Byte) (nn : Word) : List Instr := [
   .jr_NC_e n, .ld_SP_nn nn, .ld_atHLd_A, .inc_SP,
   .inc_atHL, .dec_atHL, .ld_atHL_n n, .scf,
   .jr_C_e n, .add_HL_SP, .ld_A_atHLd, .dec_SP,
   .inc_A, .dec_A, .ld_A_n n, .ccf]

/-- Row 4x of R122's grid. -/
def primaryRow4 (_n : Byte) (_nn : Word) : List Instr := [
   .ld_B_B, .ld_B_C, .ld_B_D, .ld_B_E,
   .ld_B_H, .ld_B_L, .ld_B_atHL, .ld_B_A,
   .ld_C_B, .ld_C_C, .ld_C_D, .ld_C_E,
   .ld_C_H, .ld_C_L, .ld_C_atHL, .ld_C_A]

/-- Row 5x of R122's grid. -/
def primaryRow5 (_n : Byte) (_nn : Word) : List Instr := [
   .ld_D_B, .ld_D_C, .ld_D_D, .ld_D_E,
   .ld_D_H, .ld_D_L, .ld_D_atHL, .ld_D_A,
   .ld_E_B, .ld_E_C, .ld_E_D, .ld_E_E,
   .ld_E_H, .ld_E_L, .ld_E_atHL, .ld_E_A]

/-- Row 6x of R122's grid. -/
def primaryRow6 (_n : Byte) (_nn : Word) : List Instr := [
   .ld_H_B, .ld_H_C, .ld_H_D, .ld_H_E,
   .ld_H_H, .ld_H_L, .ld_H_atHL, .ld_H_A,
   .ld_L_B, .ld_L_C, .ld_L_D, .ld_L_E,
   .ld_L_H, .ld_L_L, .ld_L_atHL, .ld_L_A]

/-- Row 7x of R122's grid. -/
def primaryRow7 (_n : Byte) (_nn : Word) : List Instr := [
   .ld_atHL_B, .ld_atHL_C, .ld_atHL_D, .ld_atHL_E,
   .ld_atHL_H, .ld_atHL_L, .halt, .ld_atHL_A,
   .ld_A_B, .ld_A_C, .ld_A_D, .ld_A_E,
   .ld_A_H, .ld_A_L, .ld_A_atHL, .ld_A_A]

/-- Row 8x of R122's grid. -/
def primaryRow8 (_n : Byte) (_nn : Word) : List Instr := [
   .add_A_B, .add_A_C, .add_A_D, .add_A_E,
   .add_A_H, .add_A_L, .add_A_atHL, .add_A_A,
   .adc_A_B, .adc_A_C, .adc_A_D, .adc_A_E,
   .adc_A_H, .adc_A_L, .adc_A_atHL, .adc_A_A]

/-- Row 9x of R122's grid. -/
def primaryRow9 (_n : Byte) (_nn : Word) : List Instr := [
   .sub_B, .sub_C, .sub_D, .sub_E,
   .sub_H, .sub_L, .sub_atHL, .sub_A,
   .sbc_A_B, .sbc_A_C, .sbc_A_D, .sbc_A_E,
   .sbc_A_H, .sbc_A_L, .sbc_A_atHL, .sbc_A_A]

/-- Row Ax of R122's grid. -/
def primaryRowA (_n : Byte) (_nn : Word) : List Instr := [
   .and_B, .and_C, .and_D, .and_E,
   .and_H, .and_L, .and_atHL, .and_A,
   .xor_B, .xor_C, .xor_D, .xor_E,
   .xor_H, .xor_L, .xor_atHL, .xor_A]

/-- Row Bx of R122's grid. -/
def primaryRowB (_n : Byte) (_nn : Word) : List Instr := [
   .or_B, .or_C, .or_D, .or_E,
   .or_H, .or_L, .or_atHL, .or_A,
   .cp_B, .cp_C, .cp_D, .cp_E,
   .cp_H, .cp_L, .cp_atHL, .cp_A]

/-- Row Cx of R122's grid. -/
def primaryRowC (n : Byte) (nn : Word) : List Instr := [
   .ret_NZ, .pop_BC, .jp_NZ_nn nn, .jp_nn nn,
   .call_NZ_nn nn, .push_BC, .add_A_n n, .rst_00,
   .ret_Z, .ret, .jp_Z_nn nn, cbInstr n,
   .call_Z_nn nn, .call_nn nn, .adc_A_n n, .rst_08]

/-- Row Dx of R122's grid. -/
def primaryRowD (n : Byte) (nn : Word) : List Instr := [
   .ret_NC, .pop_DE, .jp_NC_nn nn, .illegal_D3,
   .call_NC_nn nn, .push_DE, .sub_n n, .rst_10,
   .ret_C, .reti, .jp_C_nn nn, .illegal_DB,
   .call_C_nn nn, .illegal_DD, .sbc_A_n n, .rst_18]

/-- Row Ex of R122's grid. -/
def primaryRowE (n : Byte) (nn : Word) : List Instr := [
   .ldh_at_n_A n, .pop_HL, .ldh_atC_A, .illegal_E3,
   .illegal_E4, .push_HL, .and_n n, .rst_20,
   .add_SP_e n, .jp_HL, .ld_at_nn_A nn, .illegal_EB,
   .illegal_EC, .illegal_ED, .xor_n n, .rst_28]

/-- Row Fx of R122's grid. -/
def primaryRowF (n : Byte) (nn : Word) : List Instr := [
   .ldh_A_at_n n, .pop_AF, .ldh_A_atC, .di,
   .illegal_F4, .push_AF, .or_n n, .rst_30,
   .ld_HL_SPe n, .ld_SP_HL, .ld_A_at_nn nn, .ei,
   .illegal_FC, .illegal_FD, .cp_n n, .rst_38]

/-- R122: the primary page, row `op[7:4]`, column `op[3:0]`; the cell of the prefix 0xCB is the CB-page
instruction its second byte selects (R128). -/
def primaryGrid (n : Byte) (nn : Word) : List (List Instr) := [
   primaryRow0 n nn, primaryRow1 n nn, primaryRow2 n nn, primaryRow3 n nn,
   primaryRow4 n nn, primaryRow5 n nn, primaryRow6 n nn, primaryRow7 n nn,
   primaryRow8 n nn, primaryRow9 n nn, primaryRowA n nn, primaryRowB n nn,
   primaryRowC n nn, primaryRowD n nn, primaryRowE n nn, primaryRowF n nn]

/-- Row 0x of the length column of R123. -/
def lengthRow0 : List Nat := [1, 3, 1, 1, 1, 1, 2, 1, 3, 1, 1, 1, 1, 1, 2, 1]

/-- Row 1x of the length column of R123. -/
def lengthRow1 : List Nat := [2, 3, 1, 1, 1, 1, 2, 1, 2, 1, 1, 1, 1, 1, 2, 1]

/-- Row 2x of the length column of R123. -/
def lengthRow2 : List Nat := [2, 3, 1, 1, 1, 1, 2, 1, 2, 1, 1, 1, 1, 1, 2, 1]

/-- Row 3x of the length column of R123. -/
def lengthRow3 : List Nat := [2, 3, 1, 1, 1, 1, 2, 1, 2, 1, 1, 1, 1, 1, 2, 1]

/-- Row 4x of the length column of R123. -/
def lengthRow4 : List Nat := [1, 1, 1, 1, 1, 1, 1, 1, 1, 1, 1, 1, 1, 1, 1, 1]

/-- Row 5x of the length column of R123. -/
def lengthRow5 : List Nat := [1, 1, 1, 1, 1, 1, 1, 1, 1, 1, 1, 1, 1, 1, 1, 1]

/-- Row 6x of the length column of R123. -/
def lengthRow6 : List Nat := [1, 1, 1, 1, 1, 1, 1, 1, 1, 1, 1, 1, 1, 1, 1, 1]

/-- Row 7x of the length column of R123. -/
def lengthRow7 : List Nat := [1, 1, 1, 1, 1, 1, 1, 1, 1, 1, 1, 1, 1, 1, 1, 1]

/-- Row 8x of the length column of R123. -/
def lengthRow8 : List Nat := [1, 1, 1, 1, 1, 1, 1, 1, 1, 1, 1, 1, 1, 1, 1, 1]

/-- Row 9x of the length column of R123. -/
def lengthRow9 : List Nat := [1, 1, 1, 1, 1, 1, 1, 1, 1, 1, 1, 1, 1, 1, 1, 1]

/-- Row Ax of the length column of R123. -/
def lengthRowA : List Nat := [1, 1, 1, 1, 1, 1, 1, 1, 1, 1, 1, 1, 1, 1, 1, 1]

/-- Row Bx of the length column of R123. -/
def lengthRowB : List Nat := [1, 1, 1, 1, 1, 1, 1, 1, 1, 1, 1, 1, 1, 1, 1, 1]

/-- Row Cx of the length column of R123. -/
def lengthRowC : List Nat := [1, 1, 3, 3, 3, 1, 2, 1, 1, 1, 3, 2, 3, 3, 2, 1]

/-- Row Dx of the length column of R123. -/
def lengthRowD : List Nat := [1, 1, 3, 1, 3, 1, 2, 1, 1, 1, 3, 1, 3, 1, 2, 1]

/-- Row Ex of the length column of R123. -/
def lengthRowE : List Nat := [2, 1, 1, 1, 1, 1, 2, 1, 2, 1, 3, 1, 1, 1, 2, 1]

/-- Row Fx of the length column of R123. -/
def lengthRowF : List Nat := [2, 1, 1, 1, 1, 1, 2, 1, 2, 1, 3, 1, 1, 1, 2, 1]

/-- R123: the "256-entry static length table". -/
def lengthGrid : List (List Nat) := [
   lengthRow0, lengthRow1, lengthRow2, lengthRow3, lengthRow4, lengthRow5, lengthRow6, lengthRow7,
   lengthRow8, lengthRow9, lengthRowA, lengthRowB, lengthRowC, lengthRowD, lengthRowE, lengthRowF]

/-- `LENGTH[op]` (R112, R123): the length is fixed by the opcode byte alone (R110). -/
def instrLength (op : Byte) : Nat := gridAt lengthGrid op 1

/-- The instruction of an opcode byte and its parameter bytes (R112, R113); total (R127). A parameter byte that the
instruction does not have is not looked at. -/
def decodeOne (op p1 p2 : Byte) : Instr := gridAt (primaryGrid p1 (Word.ofBytes p2 p1)) op .nop

/-- Why a list of bytes is no instruction: it is empty, or it ends inside the instruction its first byte begins. -/
inductive DecodeError where
  | noBytes
  | truncated (opcode : Byte)
  deriving DecidableEq, Repr

/-- Decode the instruction at the head of a list of bytes, lowest address first, and return the bytes after it. -/
def decode : List Byte → Except DecodeError (Instr × List Byte)
  | [] => .error .noBytes
  | op :: rest =>
    if rest.length < instrLength op - 1 then .error (.truncated op)
    else .ok (decodeOne op (rest.getD 0 0) (rest.getD 1 0), rest.drop (instrLength op - 1))

/-- The bytes of an instruction given as a number in opcode_table.json's numbering, padded with zero bytes to the longest
instruction. The table numbers the first byte as bits 7:0 and a second and third byte above it, but for the rows of the
CB page, whose two bytes it writes as one number with the prefix 0xCB on top (match 0xCB00, mask 0xFFFF; log 10). -/
def tableBytes (nbits w : Nat) : List Byte :=
  let v := w % 2 ^ nbits
  if nbits = 16 ∧ v / 256 = 0xCB then [0xCB, BitVec.ofNat 8 v, 0]
  else [BitVec.ofNat 8 v, BitVec.ofNat 8 (v / 256), BitVec.ofNat 8 (v / 65536)]

/-- What the decoder reads from an instruction given in the table's numbering (log 10). -/
def decodeTableWord (nbits w : Nat) : Option Instr :=
  match decode (tableBytes nbits w) with
  | .ok (i, _) => some i
  | .error _ => none

/-! ### The encoder -/

/-- The 3-bit register code of R115. -/
def Reg8.code : Reg8 → BitVec 3
  | .b => 0
  | .c => 1
  | .d => 2
  | .e => 3
  | .h => 4
  | .l => 5
  | .a => 7

/-- The 3-bit operand code of R115: 6 is (HL). -/
def Loc.code : Loc → BitVec 3
  | .reg r => r.code
  | .atHL => 6

/-- The 2-bit pair code of R116. -/
def Pair.code : Pair → BitVec 2
  | .bc => 0
  | .de => 1
  | .hl => 2
  | .sp => 3

/-- The 2-bit pair code of PUSH and POP (R116). -/
def StackPair.code : StackPair → BitVec 2
  | .bc => 0
  | .de => 1
  | .hl => 2
  | .af => 3

/-- The 2-bit indirect code of R117. -/
def Indirect.code : Indirect → BitVec 2
  | .bc => 0
  | .de => 1
  | .hlInc => 2
  | .hlDec => 3

/-- The 2-bit condition code of R118. -/
def Cond.code : Cond → BitVec 2
  | .nz => 0
  | .z => 1
  | .nc => 2
  | .c => 3

/-- The 3-bit operation code of R119. -/
def AluOp.code : AluOp → BitVec 3
  | .add => 0
  | .adc => 1
  | .sub => 2
  | .sbc => 3
  | .and => 4
  | .xor => 5
  | .or => 6
  | .cp => 7

/-- The 3-bit kind code of R121. -/
def ShiftOp.code : ShiftOp → BitVec 3
  | .rlc => 0
  | .rrc => 1
  | .rl => 2
  | .rr => 3
  | .sla => 4
  | .sra => 5
  | .swap => 6
  | .srl => 7

/-- The opcode byte of an illegal opcode (R125). -/
def IllegalOp.code : IllegalOp → Byte
  | .xD3 => 0xD3
  | .xDB => 0xDB
  | .xDD => 0xDD
  | .xE3 => 0xE3
  | .xE4 => 0xE4
  | .xEB => 0xEB
  | .xEC => 0xEC
  | .xED => 0xED
  | .xF4 => 0xF4
  | .xFC => 0xFC
  | .xFD => 0xFD

/-- A 3-bit field: a bit number or an RST target number (R120, R121). -/
def code3 (n : Fin 8) : BitVec 3 := BitVec.ofNat 3 n.val

/-- The bytes of a form, lowest address first, from the encoding line of its rule (R200 to R356). -/
def Form.bytes : Form → List Byte
  | .ldRegReg dst src => [0b01#2 ++ dst.code ++ src.code]
  | .ldRegImm dst n => [0b00#2 ++ dst.code ++ 0b110#3, n]
  | .ldRegHl dst => [0b01#2 ++ dst.code ++ 0b110#3]
  | .ldHlReg r => [0b01110#5 ++ r.code]
  | .ldHlImm n => [0b00110110, n]
  | .ldAInd p => [0b00#2 ++ p.code ++ 0b1010#4]
  | .ldIndA p => [0b00#2 ++ p.code ++ 0b0010#4]
  | .ldAAbs nn => [0b11111010, nn.lo, nn.hi]
  | .ldAbsA nn => [0b11101010, nn.lo, nn.hi]
  | .ldhAC => [0xF2]
  | .ldhCA => [0xE2]
  | .ldhAImm n => [0b11110000, n]
  | .ldhImmA n => [0b11100000, n]
  | .ldPairImm p nn => [0b00#2 ++ p.code ++ 0b0001#4, nn.lo, nn.hi]
  | .ldAbsSp nn => [0b00001000, nn.lo, nn.hi]
  | .ldSpHl => [0xF9]
  | .push p => [0b11#2 ++ p.code ++ 0b0101#4]
  | .pop p => [0b11#2 ++ p.code ++ 0b0001#4]
  | .alu op (.loc l) => [0b10#2 ++ op.code ++ l.code]
  | .alu op (.imm n) => [0b11#2 ++ op.code ++ 0b110#3, n]
  | .inc8 l => [0b00#2 ++ l.code ++ 0b100#3]
  | .dec8 l => [0b00#2 ++ l.code ++ 0b101#3]
  | .daa => [0x27]
  | .cpl => [0x2F]
  | .scf => [0x37]
  | .ccf => [0x3F]
  | .addHl p => [0b00#2 ++ p.code ++ 0b1001#4]
  | .inc16 p => [0b00#2 ++ p.code ++ 0b0011#4]
  | .dec16 p => [0b00#2 ++ p.code ++ 0b1011#4]
  | .addSpE e => [0b11101000, e]
  | .ldHlSpE e => [0b11111000, e]
  | .rlca => [0x07]
  | .rrca => [0x0F]
  | .rla => [0x17]
  | .rra => [0x1F]
  | .shift op l => [0xCB, 0b00#2 ++ op.code ++ l.code]
  | .bit b l => [0xCB, 0b01#2 ++ code3 b ++ l.code]
  | .res b l => [0xCB, 0b10#2 ++ code3 b ++ l.code]
  | .set b l => [0xCB, 0b11#2 ++ code3 b ++ l.code]
  | .jp nn => [0b11000011, nn.lo, nn.hi]
  | .jpCond cc nn => [0b110#3 ++ cc.code ++ 0b010#3, nn.lo, nn.hi]
  | .jpHl => [0xE9]
  | .jr e => [0b00011000, e]
  | .jrCond cc e => [0b001#3 ++ cc.code ++ 0b000#3, e]
  | .call nn => [0b11001101, nn.lo, nn.hi]
  | .callCond cc nn => [0b110#3 ++ cc.code ++ 0b100#3, nn.lo, nn.hi]
  | .ret => [0xC9]
  | .retCond cc => [0b110#3 ++ cc.code ++ 0b000#3]
  | .rst t => [0b11#2 ++ code3 t ++ 0b111#3]
  | .reti => [0xD9]
  | .nop => [0x00]
  | .halt => [0x76]
  | .stop ignored => [0b00010000, ignored]
  | .di => [0xF3]
  | .ei => [0xFB]
  | .prefixCb cb => [0xCB, cb]
  | .illegal k => [k.code]

/-! ### The rows and the forms -/

/-- The form of each row (the table's `source_fields`; R114 to R121). -/
def Instr.form : Instr → Form
  | .nop => .nop
  | .ld_BC_nn nn => .ldPairImm .bc nn
  | .ld_atBC_A => .ldIndA .bc
  | .inc_BC => .inc16 .bc
  | .inc_B => .inc8 (.reg .b)
  | .dec_B => .dec8 (.reg .b)
  | .ld_B_n n => .ldRegImm .b n
  | .rlca => .rlca
  | .ld_at_nn_SP nn => .ldAbsSp nn
  | .add_HL_BC => .addHl .bc
  | .ld_A_atBC => .ldAInd .bc
  | .dec_BC => .dec16 .bc
  | .inc_C => .inc8 (.reg .c)
  | .dec_C => .dec8 (.reg .c)
  | .ld_C_n n => .ldRegImm .c n
  | .rrca => .rrca
  | .stop ignored => .stop ignored
  | .ld_DE_nn nn => .ldPairImm .de nn
  | .ld_atDE_A => .ldIndA .de
  | .inc_DE => .inc16 .de
  | .inc_D => .inc8 (.reg .d)
  | .dec_D => .dec8 (.reg .d)
  | .ld_D_n n => .ldRegImm .d n
  | .rla => .rla
  | .jr_e e => .jr e
  | .add_HL_DE => .addHl .de
  | .ld_A_atDE => .ldAInd .de
  | .dec_DE => .dec16 .de
  | .inc_E => .inc8 (.reg .e)
  | .dec_E => .dec8 (.reg .e)
  | .ld_E_n n => .ldRegImm .e n
  | .rra => .rra
  | .jr_NZ_e e => .jrCond .nz e
  | .ld_HL_nn nn => .ldPairImm .hl nn
  | .ld_atHLi_A => .ldIndA .hlInc
  | .inc_HL => .inc16 .hl
  | .inc_H => .inc8 (.reg .h)
  | .dec_H => .dec8 (.reg .h)
  | .ld_H_n n => .ldRegImm .h n
  | .daa => .daa
  | .jr_Z_e e => .jrCond .z e
  | .add_HL_HL => .addHl .hl
  | .ld_A_atHLi => .ldAInd .hlInc
  | .dec_HL => .dec16 .hl
  | .inc_L => .inc8 (.reg .l)
  | .dec_L => .dec8 (.reg .l)
  | .ld_L_n n => .ldRegImm .l n
  | .cpl => .cpl
  | .jr_NC_e e => .jrCond .nc e
  | .ld_SP_nn nn => .ldPairImm .sp nn
  | .ld_atHLd_A => .ldIndA .hlDec
  | .inc_SP => .inc16 .sp
  | .inc_atHL => .inc8 .atHL
  | .dec_atHL => .dec8 .atHL
  | .ld_atHL_n n => .ldHlImm n
  | .scf => .scf
  | .jr_C_e e => .jrCond .c e
  | .add_HL_SP => .addHl .sp
  | .ld_A_atHLd => .ldAInd .hlDec
  | .dec_SP => .dec16 .sp
  | .inc_A => .inc8 (.reg .a)
  | .dec_A => .dec8 (.reg .a)
  | .ld_A_n n => .ldRegImm .a n
  | .ccf => .ccf
  | .ld_B_B => .ldRegReg .b .b
  | .ld_B_C => .ldRegReg .b .c
  | .ld_B_D => .ldRegReg .b .d
  | .ld_B_E => .ldRegReg .b .e
  | .ld_B_H => .ldRegReg .b .h
  | .ld_B_L => .ldRegReg .b .l
  | .ld_B_atHL => .ldRegHl .b
  | .ld_B_A => .ldRegReg .b .a
  | .ld_C_B => .ldRegReg .c .b
  | .ld_C_C => .ldRegReg .c .c
  | .ld_C_D => .ldRegReg .c .d
  | .ld_C_E => .ldRegReg .c .e
  | .ld_C_H => .ldRegReg .c .h
  | .ld_C_L => .ldRegReg .c .l
  | .ld_C_atHL => .ldRegHl .c
  | .ld_C_A => .ldRegReg .c .a
  | .ld_D_B => .ldRegReg .d .b
  | .ld_D_C => .ldRegReg .d .c
  | .ld_D_D => .ldRegReg .d .d
  | .ld_D_E => .ldRegReg .d .e
  | .ld_D_H => .ldRegReg .d .h
  | .ld_D_L => .ldRegReg .d .l
  | .ld_D_atHL => .ldRegHl .d
  | .ld_D_A => .ldRegReg .d .a
  | .ld_E_B => .ldRegReg .e .b
  | .ld_E_C => .ldRegReg .e .c
  | .ld_E_D => .ldRegReg .e .d
  | .ld_E_E => .ldRegReg .e .e
  | .ld_E_H => .ldRegReg .e .h
  | .ld_E_L => .ldRegReg .e .l
  | .ld_E_atHL => .ldRegHl .e
  | .ld_E_A => .ldRegReg .e .a
  | .ld_H_B => .ldRegReg .h .b
  | .ld_H_C => .ldRegReg .h .c
  | .ld_H_D => .ldRegReg .h .d
  | .ld_H_E => .ldRegReg .h .e
  | .ld_H_H => .ldRegReg .h .h
  | .ld_H_L => .ldRegReg .h .l
  | .ld_H_atHL => .ldRegHl .h
  | .ld_H_A => .ldRegReg .h .a
  | .ld_L_B => .ldRegReg .l .b
  | .ld_L_C => .ldRegReg .l .c
  | .ld_L_D => .ldRegReg .l .d
  | .ld_L_E => .ldRegReg .l .e
  | .ld_L_H => .ldRegReg .l .h
  | .ld_L_L => .ldRegReg .l .l
  | .ld_L_atHL => .ldRegHl .l
  | .ld_L_A => .ldRegReg .l .a
  | .ld_atHL_B => .ldHlReg .b
  | .ld_atHL_C => .ldHlReg .c
  | .ld_atHL_D => .ldHlReg .d
  | .ld_atHL_E => .ldHlReg .e
  | .ld_atHL_H => .ldHlReg .h
  | .ld_atHL_L => .ldHlReg .l
  | .halt => .halt
  | .ld_atHL_A => .ldHlReg .a
  | .ld_A_B => .ldRegReg .a .b
  | .ld_A_C => .ldRegReg .a .c
  | .ld_A_D => .ldRegReg .a .d
  | .ld_A_E => .ldRegReg .a .e
  | .ld_A_H => .ldRegReg .a .h
  | .ld_A_L => .ldRegReg .a .l
  | .ld_A_atHL => .ldRegHl .a
  | .ld_A_A => .ldRegReg .a .a
  | .add_A_B => .alu .add (.loc (.reg .b))
  | .add_A_C => .alu .add (.loc (.reg .c))
  | .add_A_D => .alu .add (.loc (.reg .d))
  | .add_A_E => .alu .add (.loc (.reg .e))
  | .add_A_H => .alu .add (.loc (.reg .h))
  | .add_A_L => .alu .add (.loc (.reg .l))
  | .add_A_atHL => .alu .add (.loc .atHL)
  | .add_A_A => .alu .add (.loc (.reg .a))
  | .adc_A_B => .alu .adc (.loc (.reg .b))
  | .adc_A_C => .alu .adc (.loc (.reg .c))
  | .adc_A_D => .alu .adc (.loc (.reg .d))
  | .adc_A_E => .alu .adc (.loc (.reg .e))
  | .adc_A_H => .alu .adc (.loc (.reg .h))
  | .adc_A_L => .alu .adc (.loc (.reg .l))
  | .adc_A_atHL => .alu .adc (.loc .atHL)
  | .adc_A_A => .alu .adc (.loc (.reg .a))
  | .sub_B => .alu .sub (.loc (.reg .b))
  | .sub_C => .alu .sub (.loc (.reg .c))
  | .sub_D => .alu .sub (.loc (.reg .d))
  | .sub_E => .alu .sub (.loc (.reg .e))
  | .sub_H => .alu .sub (.loc (.reg .h))
  | .sub_L => .alu .sub (.loc (.reg .l))
  | .sub_atHL => .alu .sub (.loc .atHL)
  | .sub_A => .alu .sub (.loc (.reg .a))
  | .sbc_A_B => .alu .sbc (.loc (.reg .b))
  | .sbc_A_C => .alu .sbc (.loc (.reg .c))
  | .sbc_A_D => .alu .sbc (.loc (.reg .d))
  | .sbc_A_E => .alu .sbc (.loc (.reg .e))
  | .sbc_A_H => .alu .sbc (.loc (.reg .h))
  | .sbc_A_L => .alu .sbc (.loc (.reg .l))
  | .sbc_A_atHL => .alu .sbc (.loc .atHL)
  | .sbc_A_A => .alu .sbc (.loc (.reg .a))
  | .and_B => .alu .and (.loc (.reg .b))
  | .and_C => .alu .and (.loc (.reg .c))
  | .and_D => .alu .and (.loc (.reg .d))
  | .and_E => .alu .and (.loc (.reg .e))
  | .and_H => .alu .and (.loc (.reg .h))
  | .and_L => .alu .and (.loc (.reg .l))
  | .and_atHL => .alu .and (.loc .atHL)
  | .and_A => .alu .and (.loc (.reg .a))
  | .xor_B => .alu .xor (.loc (.reg .b))
  | .xor_C => .alu .xor (.loc (.reg .c))
  | .xor_D => .alu .xor (.loc (.reg .d))
  | .xor_E => .alu .xor (.loc (.reg .e))
  | .xor_H => .alu .xor (.loc (.reg .h))
  | .xor_L => .alu .xor (.loc (.reg .l))
  | .xor_atHL => .alu .xor (.loc .atHL)
  | .xor_A => .alu .xor (.loc (.reg .a))
  | .or_B => .alu .or (.loc (.reg .b))
  | .or_C => .alu .or (.loc (.reg .c))
  | .or_D => .alu .or (.loc (.reg .d))
  | .or_E => .alu .or (.loc (.reg .e))
  | .or_H => .alu .or (.loc (.reg .h))
  | .or_L => .alu .or (.loc (.reg .l))
  | .or_atHL => .alu .or (.loc .atHL)
  | .or_A => .alu .or (.loc (.reg .a))
  | .cp_B => .alu .cp (.loc (.reg .b))
  | .cp_C => .alu .cp (.loc (.reg .c))
  | .cp_D => .alu .cp (.loc (.reg .d))
  | .cp_E => .alu .cp (.loc (.reg .e))
  | .cp_H => .alu .cp (.loc (.reg .h))
  | .cp_L => .alu .cp (.loc (.reg .l))
  | .cp_atHL => .alu .cp (.loc .atHL)
  | .cp_A => .alu .cp (.loc (.reg .a))
  | .ret_NZ => .retCond .nz
  | .pop_BC => .pop .bc
  | .jp_NZ_nn nn => .jpCond .nz nn
  | .jp_nn nn => .jp nn
  | .call_NZ_nn nn => .callCond .nz nn
  | .push_BC => .push .bc
  | .add_A_n n => .alu .add (.imm n)
  | .rst_00 => .rst 0
  | .ret_Z => .retCond .z
  | .ret => .ret
  | .jp_Z_nn nn => .jpCond .z nn
  | .prefix_CB cb => .prefixCb cb
  | .call_Z_nn nn => .callCond .z nn
  | .call_nn nn => .call nn
  | .adc_A_n n => .alu .adc (.imm n)
  | .rst_08 => .rst 1
  | .ret_NC => .retCond .nc
  | .pop_DE => .pop .de
  | .jp_NC_nn nn => .jpCond .nc nn
  | .illegal_D3 => .illegal .xD3
  | .call_NC_nn nn => .callCond .nc nn
  | .push_DE => .push .de
  | .sub_n n => .alu .sub (.imm n)
  | .rst_10 => .rst 2
  | .ret_C => .retCond .c
  | .reti => .reti
  | .jp_C_nn nn => .jpCond .c nn
  | .illegal_DB => .illegal .xDB
  | .call_C_nn nn => .callCond .c nn
  | .illegal_DD => .illegal .xDD
  | .sbc_A_n n => .alu .sbc (.imm n)
  | .rst_18 => .rst 3
  | .ldh_at_n_A n => .ldhImmA n
  | .pop_HL => .pop .hl
  | .ldh_atC_A => .ldhCA
  | .illegal_E3 => .illegal .xE3
  | .illegal_E4 => .illegal .xE4
  | .push_HL => .push .hl
  | .and_n n => .alu .and (.imm n)
  | .rst_20 => .rst 4
  | .add_SP_e e => .addSpE e
  | .jp_HL => .jpHl
  | .ld_at_nn_A nn => .ldAbsA nn
  | .illegal_EB => .illegal .xEB
  | .illegal_EC => .illegal .xEC
  | .illegal_ED => .illegal .xED
  | .xor_n n => .alu .xor (.imm n)
  | .rst_28 => .rst 5
  | .ldh_A_at_n n => .ldhAImm n
  | .pop_AF => .pop .af
  | .ldh_A_atC => .ldhAC
  | .di => .di
  | .illegal_F4 => .illegal .xF4
  | .push_AF => .push .af
  | .or_n n => .alu .or (.imm n)
  | .rst_30 => .rst 6
  | .ld_HL_SPe e => .ldHlSpE e
  | .ld_SP_HL => .ldSpHl
  | .ld_A_at_nn nn => .ldAAbs nn
  | .ei => .ei
  | .illegal_FC => .illegal .xFC
  | .illegal_FD => .illegal .xFD
  | .cp_n n => .alu .cp (.imm n)
  | .rst_38 => .rst 7
  | .rlc_B => .shift .rlc (.reg .b)
  | .rlc_C => .shift .rlc (.reg .c)
  | .rlc_D => .shift .rlc (.reg .d)
  | .rlc_E => .shift .rlc (.reg .e)
  | .rlc_H => .shift .rlc (.reg .h)
  | .rlc_L => .shift .rlc (.reg .l)
  | .rlc_atHL => .shift .rlc .atHL
  | .rlc_A => .shift .rlc (.reg .a)
  | .rrc_B => .shift .rrc (.reg .b)
  | .rrc_C => .shift .rrc (.reg .c)
  | .rrc_D => .shift .rrc (.reg .d)
  | .rrc_E => .shift .rrc (.reg .e)
  | .rrc_H => .shift .rrc (.reg .h)
  | .rrc_L => .shift .rrc (.reg .l)
  | .rrc_atHL => .shift .rrc .atHL
  | .rrc_A => .shift .rrc (.reg .a)
  | .rl_B => .shift .rl (.reg .b)
  | .rl_C => .shift .rl (.reg .c)
  | .rl_D => .shift .rl (.reg .d)
  | .rl_E => .shift .rl (.reg .e)
  | .rl_H => .shift .rl (.reg .h)
  | .rl_L => .shift .rl (.reg .l)
  | .rl_atHL => .shift .rl .atHL
  | .rl_A => .shift .rl (.reg .a)
  | .rr_B => .shift .rr (.reg .b)
  | .rr_C => .shift .rr (.reg .c)
  | .rr_D => .shift .rr (.reg .d)
  | .rr_E => .shift .rr (.reg .e)
  | .rr_H => .shift .rr (.reg .h)
  | .rr_L => .shift .rr (.reg .l)
  | .rr_atHL => .shift .rr .atHL
  | .rr_A => .shift .rr (.reg .a)
  | .sla_B => .shift .sla (.reg .b)
  | .sla_C => .shift .sla (.reg .c)
  | .sla_D => .shift .sla (.reg .d)
  | .sla_E => .shift .sla (.reg .e)
  | .sla_H => .shift .sla (.reg .h)
  | .sla_L => .shift .sla (.reg .l)
  | .sla_atHL => .shift .sla .atHL
  | .sla_A => .shift .sla (.reg .a)
  | .sra_B => .shift .sra (.reg .b)
  | .sra_C => .shift .sra (.reg .c)
  | .sra_D => .shift .sra (.reg .d)
  | .sra_E => .shift .sra (.reg .e)
  | .sra_H => .shift .sra (.reg .h)
  | .sra_L => .shift .sra (.reg .l)
  | .sra_atHL => .shift .sra .atHL
  | .sra_A => .shift .sra (.reg .a)
  | .swap_B => .shift .swap (.reg .b)
  | .swap_C => .shift .swap (.reg .c)
  | .swap_D => .shift .swap (.reg .d)
  | .swap_E => .shift .swap (.reg .e)
  | .swap_H => .shift .swap (.reg .h)
  | .swap_L => .shift .swap (.reg .l)
  | .swap_atHL => .shift .swap .atHL
  | .swap_A => .shift .swap (.reg .a)
  | .srl_B => .shift .srl (.reg .b)
  | .srl_C => .shift .srl (.reg .c)
  | .srl_D => .shift .srl (.reg .d)
  | .srl_E => .shift .srl (.reg .e)
  | .srl_H => .shift .srl (.reg .h)
  | .srl_L => .shift .srl (.reg .l)
  | .srl_atHL => .shift .srl .atHL
  | .srl_A => .shift .srl (.reg .a)
  | .bit_0_B => .bit 0 (.reg .b)
  | .bit_0_C => .bit 0 (.reg .c)
  | .bit_0_D => .bit 0 (.reg .d)
  | .bit_0_E => .bit 0 (.reg .e)
  | .bit_0_H => .bit 0 (.reg .h)
  | .bit_0_L => .bit 0 (.reg .l)
  | .bit_0_atHL => .bit 0 .atHL
  | .bit_0_A => .bit 0 (.reg .a)
  | .bit_1_B => .bit 1 (.reg .b)
  | .bit_1_C => .bit 1 (.reg .c)
  | .bit_1_D => .bit 1 (.reg .d)
  | .bit_1_E => .bit 1 (.reg .e)
  | .bit_1_H => .bit 1 (.reg .h)
  | .bit_1_L => .bit 1 (.reg .l)
  | .bit_1_atHL => .bit 1 .atHL
  | .bit_1_A => .bit 1 (.reg .a)
  | .bit_2_B => .bit 2 (.reg .b)
  | .bit_2_C => .bit 2 (.reg .c)
  | .bit_2_D => .bit 2 (.reg .d)
  | .bit_2_E => .bit 2 (.reg .e)
  | .bit_2_H => .bit 2 (.reg .h)
  | .bit_2_L => .bit 2 (.reg .l)
  | .bit_2_atHL => .bit 2 .atHL
  | .bit_2_A => .bit 2 (.reg .a)
  | .bit_3_B => .bit 3 (.reg .b)
  | .bit_3_C => .bit 3 (.reg .c)
  | .bit_3_D => .bit 3 (.reg .d)
  | .bit_3_E => .bit 3 (.reg .e)
  | .bit_3_H => .bit 3 (.reg .h)
  | .bit_3_L => .bit 3 (.reg .l)
  | .bit_3_atHL => .bit 3 .atHL
  | .bit_3_A => .bit 3 (.reg .a)
  | .bit_4_B => .bit 4 (.reg .b)
  | .bit_4_C => .bit 4 (.reg .c)
  | .bit_4_D => .bit 4 (.reg .d)
  | .bit_4_E => .bit 4 (.reg .e)
  | .bit_4_H => .bit 4 (.reg .h)
  | .bit_4_L => .bit 4 (.reg .l)
  | .bit_4_atHL => .bit 4 .atHL
  | .bit_4_A => .bit 4 (.reg .a)
  | .bit_5_B => .bit 5 (.reg .b)
  | .bit_5_C => .bit 5 (.reg .c)
  | .bit_5_D => .bit 5 (.reg .d)
  | .bit_5_E => .bit 5 (.reg .e)
  | .bit_5_H => .bit 5 (.reg .h)
  | .bit_5_L => .bit 5 (.reg .l)
  | .bit_5_atHL => .bit 5 .atHL
  | .bit_5_A => .bit 5 (.reg .a)
  | .bit_6_B => .bit 6 (.reg .b)
  | .bit_6_C => .bit 6 (.reg .c)
  | .bit_6_D => .bit 6 (.reg .d)
  | .bit_6_E => .bit 6 (.reg .e)
  | .bit_6_H => .bit 6 (.reg .h)
  | .bit_6_L => .bit 6 (.reg .l)
  | .bit_6_atHL => .bit 6 .atHL
  | .bit_6_A => .bit 6 (.reg .a)
  | .bit_7_B => .bit 7 (.reg .b)
  | .bit_7_C => .bit 7 (.reg .c)
  | .bit_7_D => .bit 7 (.reg .d)
  | .bit_7_E => .bit 7 (.reg .e)
  | .bit_7_H => .bit 7 (.reg .h)
  | .bit_7_L => .bit 7 (.reg .l)
  | .bit_7_atHL => .bit 7 .atHL
  | .bit_7_A => .bit 7 (.reg .a)
  | .res_0_B => .res 0 (.reg .b)
  | .res_0_C => .res 0 (.reg .c)
  | .res_0_D => .res 0 (.reg .d)
  | .res_0_E => .res 0 (.reg .e)
  | .res_0_H => .res 0 (.reg .h)
  | .res_0_L => .res 0 (.reg .l)
  | .res_0_atHL => .res 0 .atHL
  | .res_0_A => .res 0 (.reg .a)
  | .res_1_B => .res 1 (.reg .b)
  | .res_1_C => .res 1 (.reg .c)
  | .res_1_D => .res 1 (.reg .d)
  | .res_1_E => .res 1 (.reg .e)
  | .res_1_H => .res 1 (.reg .h)
  | .res_1_L => .res 1 (.reg .l)
  | .res_1_atHL => .res 1 .atHL
  | .res_1_A => .res 1 (.reg .a)
  | .res_2_B => .res 2 (.reg .b)
  | .res_2_C => .res 2 (.reg .c)
  | .res_2_D => .res 2 (.reg .d)
  | .res_2_E => .res 2 (.reg .e)
  | .res_2_H => .res 2 (.reg .h)
  | .res_2_L => .res 2 (.reg .l)
  | .res_2_atHL => .res 2 .atHL
  | .res_2_A => .res 2 (.reg .a)
  | .res_3_B => .res 3 (.reg .b)
  | .res_3_C => .res 3 (.reg .c)
  | .res_3_D => .res 3 (.reg .d)
  | .res_3_E => .res 3 (.reg .e)
  | .res_3_H => .res 3 (.reg .h)
  | .res_3_L => .res 3 (.reg .l)
  | .res_3_atHL => .res 3 .atHL
  | .res_3_A => .res 3 (.reg .a)
  | .res_4_B => .res 4 (.reg .b)
  | .res_4_C => .res 4 (.reg .c)
  | .res_4_D => .res 4 (.reg .d)
  | .res_4_E => .res 4 (.reg .e)
  | .res_4_H => .res 4 (.reg .h)
  | .res_4_L => .res 4 (.reg .l)
  | .res_4_atHL => .res 4 .atHL
  | .res_4_A => .res 4 (.reg .a)
  | .res_5_B => .res 5 (.reg .b)
  | .res_5_C => .res 5 (.reg .c)
  | .res_5_D => .res 5 (.reg .d)
  | .res_5_E => .res 5 (.reg .e)
  | .res_5_H => .res 5 (.reg .h)
  | .res_5_L => .res 5 (.reg .l)
  | .res_5_atHL => .res 5 .atHL
  | .res_5_A => .res 5 (.reg .a)
  | .res_6_B => .res 6 (.reg .b)
  | .res_6_C => .res 6 (.reg .c)
  | .res_6_D => .res 6 (.reg .d)
  | .res_6_E => .res 6 (.reg .e)
  | .res_6_H => .res 6 (.reg .h)
  | .res_6_L => .res 6 (.reg .l)
  | .res_6_atHL => .res 6 .atHL
  | .res_6_A => .res 6 (.reg .a)
  | .res_7_B => .res 7 (.reg .b)
  | .res_7_C => .res 7 (.reg .c)
  | .res_7_D => .res 7 (.reg .d)
  | .res_7_E => .res 7 (.reg .e)
  | .res_7_H => .res 7 (.reg .h)
  | .res_7_L => .res 7 (.reg .l)
  | .res_7_atHL => .res 7 .atHL
  | .res_7_A => .res 7 (.reg .a)
  | .set_0_B => .set 0 (.reg .b)
  | .set_0_C => .set 0 (.reg .c)
  | .set_0_D => .set 0 (.reg .d)
  | .set_0_E => .set 0 (.reg .e)
  | .set_0_H => .set 0 (.reg .h)
  | .set_0_L => .set 0 (.reg .l)
  | .set_0_atHL => .set 0 .atHL
  | .set_0_A => .set 0 (.reg .a)
  | .set_1_B => .set 1 (.reg .b)
  | .set_1_C => .set 1 (.reg .c)
  | .set_1_D => .set 1 (.reg .d)
  | .set_1_E => .set 1 (.reg .e)
  | .set_1_H => .set 1 (.reg .h)
  | .set_1_L => .set 1 (.reg .l)
  | .set_1_atHL => .set 1 .atHL
  | .set_1_A => .set 1 (.reg .a)
  | .set_2_B => .set 2 (.reg .b)
  | .set_2_C => .set 2 (.reg .c)
  | .set_2_D => .set 2 (.reg .d)
  | .set_2_E => .set 2 (.reg .e)
  | .set_2_H => .set 2 (.reg .h)
  | .set_2_L => .set 2 (.reg .l)
  | .set_2_atHL => .set 2 .atHL
  | .set_2_A => .set 2 (.reg .a)
  | .set_3_B => .set 3 (.reg .b)
  | .set_3_C => .set 3 (.reg .c)
  | .set_3_D => .set 3 (.reg .d)
  | .set_3_E => .set 3 (.reg .e)
  | .set_3_H => .set 3 (.reg .h)
  | .set_3_L => .set 3 (.reg .l)
  | .set_3_atHL => .set 3 .atHL
  | .set_3_A => .set 3 (.reg .a)
  | .set_4_B => .set 4 (.reg .b)
  | .set_4_C => .set 4 (.reg .c)
  | .set_4_D => .set 4 (.reg .d)
  | .set_4_E => .set 4 (.reg .e)
  | .set_4_H => .set 4 (.reg .h)
  | .set_4_L => .set 4 (.reg .l)
  | .set_4_atHL => .set 4 .atHL
  | .set_4_A => .set 4 (.reg .a)
  | .set_5_B => .set 5 (.reg .b)
  | .set_5_C => .set 5 (.reg .c)
  | .set_5_D => .set 5 (.reg .d)
  | .set_5_E => .set 5 (.reg .e)
  | .set_5_H => .set 5 (.reg .h)
  | .set_5_L => .set 5 (.reg .l)
  | .set_5_atHL => .set 5 .atHL
  | .set_5_A => .set 5 (.reg .a)
  | .set_6_B => .set 6 (.reg .b)
  | .set_6_C => .set 6 (.reg .c)
  | .set_6_D => .set 6 (.reg .d)
  | .set_6_E => .set 6 (.reg .e)
  | .set_6_H => .set 6 (.reg .h)
  | .set_6_L => .set 6 (.reg .l)
  | .set_6_atHL => .set 6 .atHL
  | .set_6_A => .set 6 (.reg .a)
  | .set_7_B => .set 7 (.reg .b)
  | .set_7_C => .set 7 (.reg .c)
  | .set_7_D => .set 7 (.reg .d)
  | .set_7_E => .set 7 (.reg .e)
  | .set_7_H => .set 7 (.reg .h)
  | .set_7_L => .set 7 (.reg .l)
  | .set_7_atHL => .set 7 .atHL
  | .set_7_A => .set 7 (.reg .a)

/-- `LD r,r'`, opcodes 0x40 to 0x7F without 6 (R200). -/
def instrLdRegReg : Reg8 → Reg8 → Instr
  | .b, .b => .ld_B_B
  | .b, .c => .ld_B_C
  | .b, .d => .ld_B_D
  | .b, .e => .ld_B_E
  | .b, .h => .ld_B_H
  | .b, .l => .ld_B_L
  | .b, .a => .ld_B_A
  | .c, .b => .ld_C_B
  | .c, .c => .ld_C_C
  | .c, .d => .ld_C_D
  | .c, .e => .ld_C_E
  | .c, .h => .ld_C_H
  | .c, .l => .ld_C_L
  | .c, .a => .ld_C_A
  | .d, .b => .ld_D_B
  | .d, .c => .ld_D_C
  | .d, .d => .ld_D_D
  | .d, .e => .ld_D_E
  | .d, .h => .ld_D_H
  | .d, .l => .ld_D_L
  | .d, .a => .ld_D_A
  | .e, .b => .ld_E_B
  | .e, .c => .ld_E_C
  | .e, .d => .ld_E_D
  | .e, .e => .ld_E_E
  | .e, .h => .ld_E_H
  | .e, .l => .ld_E_L
  | .e, .a => .ld_E_A
  | .h, .b => .ld_H_B
  | .h, .c => .ld_H_C
  | .h, .d => .ld_H_D
  | .h, .e => .ld_H_E
  | .h, .h => .ld_H_H
  | .h, .l => .ld_H_L
  | .h, .a => .ld_H_A
  | .l, .b => .ld_L_B
  | .l, .c => .ld_L_C
  | .l, .d => .ld_L_D
  | .l, .e => .ld_L_E
  | .l, .h => .ld_L_H
  | .l, .l => .ld_L_L
  | .l, .a => .ld_L_A
  | .a, .b => .ld_A_B
  | .a, .c => .ld_A_C
  | .a, .d => .ld_A_D
  | .a, .e => .ld_A_E
  | .a, .h => .ld_A_H
  | .a, .l => .ld_A_L
  | .a, .a => .ld_A_A

/-- `LD r,n` (R201). -/
def instrLdRegImm : Reg8 → Byte → Instr
  | .b, n => .ld_B_n n
  | .c, n => .ld_C_n n
  | .d, n => .ld_D_n n
  | .e, n => .ld_E_n n
  | .h, n => .ld_H_n n
  | .l, n => .ld_L_n n
  | .a, n => .ld_A_n n

/-- `LD r,(HL)` (R202). -/
def instrLdRegHl : Reg8 → Instr
  | .b => .ld_B_atHL
  | .c => .ld_C_atHL
  | .d => .ld_D_atHL
  | .e => .ld_E_atHL
  | .h => .ld_H_atHL
  | .l => .ld_L_atHL
  | .a => .ld_A_atHL

/-- `LD (HL),r` (R203). -/
def instrLdHlReg : Reg8 → Instr
  | .b => .ld_atHL_B
  | .c => .ld_atHL_C
  | .d => .ld_atHL_D
  | .e => .ld_atHL_E
  | .h => .ld_atHL_H
  | .l => .ld_atHL_L
  | .a => .ld_atHL_A

/-- `LD A,(BC)`, `(DE)`, `(HL+)`, `(HL-)` (R117). -/
def instrLdAInd : Indirect → Instr
  | .bc => .ld_A_atBC
  | .de => .ld_A_atDE
  | .hlInc => .ld_A_atHLi
  | .hlDec => .ld_A_atHLd

/-- `LD (BC),A`, `(DE)`, `(HL+)`, `(HL-)` (R117). -/
def instrLdIndA : Indirect → Instr
  | .bc => .ld_atBC_A
  | .de => .ld_atDE_A
  | .hlInc => .ld_atHLi_A
  | .hlDec => .ld_atHLd_A

/-- `LD rr,nn` (R230). -/
def instrLdPairImm : Pair → Word → Instr
  | .bc, nn => .ld_BC_nn nn
  | .de, nn => .ld_DE_nn nn
  | .hl, nn => .ld_HL_nn nn
  | .sp, nn => .ld_SP_nn nn

/-- `PUSH rr` (R233). -/
def instrPush : StackPair → Instr
  | .bc => .push_BC
  | .de => .push_DE
  | .hl => .push_HL
  | .af => .push_AF

/-- `POP rr` (R234, R238). -/
def instrPop : StackPair → Instr
  | .bc => .pop_BC
  | .de => .pop_DE
  | .hl => .pop_HL
  | .af => .pop_AF

/-- The ALU operations (R119, R253 to R276). -/
def instrAlu : AluOp → Src8 → Instr
  | .add, .loc (.reg .b) => .add_A_B
  | .add, .loc (.reg .c) => .add_A_C
  | .add, .loc (.reg .d) => .add_A_D
  | .add, .loc (.reg .e) => .add_A_E
  | .add, .loc (.reg .h) => .add_A_H
  | .add, .loc (.reg .l) => .add_A_L
  | .add, .loc .atHL => .add_A_atHL
  | .add, .loc (.reg .a) => .add_A_A
  | .adc, .loc (.reg .b) => .adc_A_B
  | .adc, .loc (.reg .c) => .adc_A_C
  | .adc, .loc (.reg .d) => .adc_A_D
  | .adc, .loc (.reg .e) => .adc_A_E
  | .adc, .loc (.reg .h) => .adc_A_H
  | .adc, .loc (.reg .l) => .adc_A_L
  | .adc, .loc .atHL => .adc_A_atHL
  | .adc, .loc (.reg .a) => .adc_A_A
  | .sub, .loc (.reg .b) => .sub_B
  | .sub, .loc (.reg .c) => .sub_C
  | .sub, .loc (.reg .d) => .sub_D
  | .sub, .loc (.reg .e) => .sub_E
  | .sub, .loc (.reg .h) => .sub_H
  | .sub, .loc (.reg .l) => .sub_L
  | .sub, .loc .atHL => .sub_atHL
  | .sub, .loc (.reg .a) => .sub_A
  | .sbc, .loc (.reg .b) => .sbc_A_B
  | .sbc, .loc (.reg .c) => .sbc_A_C
  | .sbc, .loc (.reg .d) => .sbc_A_D
  | .sbc, .loc (.reg .e) => .sbc_A_E
  | .sbc, .loc (.reg .h) => .sbc_A_H
  | .sbc, .loc (.reg .l) => .sbc_A_L
  | .sbc, .loc .atHL => .sbc_A_atHL
  | .sbc, .loc (.reg .a) => .sbc_A_A
  | .and, .loc (.reg .b) => .and_B
  | .and, .loc (.reg .c) => .and_C
  | .and, .loc (.reg .d) => .and_D
  | .and, .loc (.reg .e) => .and_E
  | .and, .loc (.reg .h) => .and_H
  | .and, .loc (.reg .l) => .and_L
  | .and, .loc .atHL => .and_atHL
  | .and, .loc (.reg .a) => .and_A
  | .xor, .loc (.reg .b) => .xor_B
  | .xor, .loc (.reg .c) => .xor_C
  | .xor, .loc (.reg .d) => .xor_D
  | .xor, .loc (.reg .e) => .xor_E
  | .xor, .loc (.reg .h) => .xor_H
  | .xor, .loc (.reg .l) => .xor_L
  | .xor, .loc .atHL => .xor_atHL
  | .xor, .loc (.reg .a) => .xor_A
  | .or, .loc (.reg .b) => .or_B
  | .or, .loc (.reg .c) => .or_C
  | .or, .loc (.reg .d) => .or_D
  | .or, .loc (.reg .e) => .or_E
  | .or, .loc (.reg .h) => .or_H
  | .or, .loc (.reg .l) => .or_L
  | .or, .loc .atHL => .or_atHL
  | .or, .loc (.reg .a) => .or_A
  | .cp, .loc (.reg .b) => .cp_B
  | .cp, .loc (.reg .c) => .cp_C
  | .cp, .loc (.reg .d) => .cp_D
  | .cp, .loc (.reg .e) => .cp_E
  | .cp, .loc (.reg .h) => .cp_H
  | .cp, .loc (.reg .l) => .cp_L
  | .cp, .loc .atHL => .cp_atHL
  | .cp, .loc (.reg .a) => .cp_A
  | .add, .imm n => .add_A_n n
  | .adc, .imm n => .adc_A_n n
  | .sub, .imm n => .sub_n n
  | .sbc, .imm n => .sbc_A_n n
  | .and, .imm n => .and_n n
  | .xor, .imm n => .xor_n n
  | .or, .imm n => .or_n n
  | .cp, .imm n => .cp_n n

/-- `INC r`, `INC (HL)` (R277, R278). -/
def instrInc8 : Loc → Instr
  | .reg .b => .inc_B
  | .reg .c => .inc_C
  | .reg .d => .inc_D
  | .reg .e => .inc_E
  | .reg .h => .inc_H
  | .reg .l => .inc_L
  | .atHL => .inc_atHL
  | .reg .a => .inc_A

/-- `DEC r`, `DEC (HL)` (R279, R280). -/
def instrDec8 : Loc → Instr
  | .reg .b => .dec_B
  | .reg .c => .dec_C
  | .reg .d => .dec_D
  | .reg .e => .dec_E
  | .reg .h => .dec_H
  | .reg .l => .dec_L
  | .atHL => .dec_atHL
  | .reg .a => .dec_A

/-- `ADD HL,rr` (R291). -/
def instrAddHl : Pair → Instr
  | .bc => .add_HL_BC
  | .de => .add_HL_DE
  | .hl => .add_HL_HL
  | .sp => .add_HL_SP

/-- `INC rr` (R292). -/
def instrInc16 : Pair → Instr
  | .bc => .inc_BC
  | .de => .inc_DE
  | .hl => .inc_HL
  | .sp => .inc_SP

/-- `DEC rr` (R293). -/
def instrDec16 : Pair → Instr
  | .bc => .dec_BC
  | .de => .dec_DE
  | .hl => .dec_HL
  | .sp => .dec_SP

/-- The CB rotates, shifts and SWAP (R305 to R320). -/
def instrShift : ShiftOp → Loc → Instr
  | .rlc, .reg .b => .rlc_B
  | .rlc, .reg .c => .rlc_C
  | .rlc, .reg .d => .rlc_D
  | .rlc, .reg .e => .rlc_E
  | .rlc, .reg .h => .rlc_H
  | .rlc, .reg .l => .rlc_L
  | .rlc, .atHL => .rlc_atHL
  | .rlc, .reg .a => .rlc_A
  | .rrc, .reg .b => .rrc_B
  | .rrc, .reg .c => .rrc_C
  | .rrc, .reg .d => .rrc_D
  | .rrc, .reg .e => .rrc_E
  | .rrc, .reg .h => .rrc_H
  | .rrc, .reg .l => .rrc_L
  | .rrc, .atHL => .rrc_atHL
  | .rrc, .reg .a => .rrc_A
  | .rl, .reg .b => .rl_B
  | .rl, .reg .c => .rl_C
  | .rl, .reg .d => .rl_D
  | .rl, .reg .e => .rl_E
  | .rl, .reg .h => .rl_H
  | .rl, .reg .l => .rl_L
  | .rl, .atHL => .rl_atHL
  | .rl, .reg .a => .rl_A
  | .rr, .reg .b => .rr_B
  | .rr, .reg .c => .rr_C
  | .rr, .reg .d => .rr_D
  | .rr, .reg .e => .rr_E
  | .rr, .reg .h => .rr_H
  | .rr, .reg .l => .rr_L
  | .rr, .atHL => .rr_atHL
  | .rr, .reg .a => .rr_A
  | .sla, .reg .b => .sla_B
  | .sla, .reg .c => .sla_C
  | .sla, .reg .d => .sla_D
  | .sla, .reg .e => .sla_E
  | .sla, .reg .h => .sla_H
  | .sla, .reg .l => .sla_L
  | .sla, .atHL => .sla_atHL
  | .sla, .reg .a => .sla_A
  | .sra, .reg .b => .sra_B
  | .sra, .reg .c => .sra_C
  | .sra, .reg .d => .sra_D
  | .sra, .reg .e => .sra_E
  | .sra, .reg .h => .sra_H
  | .sra, .reg .l => .sra_L
  | .sra, .atHL => .sra_atHL
  | .sra, .reg .a => .sra_A
  | .swap, .reg .b => .swap_B
  | .swap, .reg .c => .swap_C
  | .swap, .reg .d => .swap_D
  | .swap, .reg .e => .swap_E
  | .swap, .reg .h => .swap_H
  | .swap, .reg .l => .swap_L
  | .swap, .atHL => .swap_atHL
  | .swap, .reg .a => .swap_A
  | .srl, .reg .b => .srl_B
  | .srl, .reg .c => .srl_C
  | .srl, .reg .d => .srl_D
  | .srl, .reg .e => .srl_E
  | .srl, .reg .h => .srl_H
  | .srl, .reg .l => .srl_L
  | .srl, .atHL => .srl_atHL
  | .srl, .reg .a => .srl_A

/-- `BIT b,r`, `BIT b,(HL)` (R321, R322). -/
def instrBit : Fin 8 → Loc → Instr
  | 0, .reg .b => .bit_0_B
  | 0, .reg .c => .bit_0_C
  | 0, .reg .d => .bit_0_D
  | 0, .reg .e => .bit_0_E
  | 0, .reg .h => .bit_0_H
  | 0, .reg .l => .bit_0_L
  | 0, .atHL => .bit_0_atHL
  | 0, .reg .a => .bit_0_A
  | 1, .reg .b => .bit_1_B
  | 1, .reg .c => .bit_1_C
  | 1, .reg .d => .bit_1_D
  | 1, .reg .e => .bit_1_E
  | 1, .reg .h => .bit_1_H
  | 1, .reg .l => .bit_1_L
  | 1, .atHL => .bit_1_atHL
  | 1, .reg .a => .bit_1_A
  | 2, .reg .b => .bit_2_B
  | 2, .reg .c => .bit_2_C
  | 2, .reg .d => .bit_2_D
  | 2, .reg .e => .bit_2_E
  | 2, .reg .h => .bit_2_H
  | 2, .reg .l => .bit_2_L
  | 2, .atHL => .bit_2_atHL
  | 2, .reg .a => .bit_2_A
  | 3, .reg .b => .bit_3_B
  | 3, .reg .c => .bit_3_C
  | 3, .reg .d => .bit_3_D
  | 3, .reg .e => .bit_3_E
  | 3, .reg .h => .bit_3_H
  | 3, .reg .l => .bit_3_L
  | 3, .atHL => .bit_3_atHL
  | 3, .reg .a => .bit_3_A
  | 4, .reg .b => .bit_4_B
  | 4, .reg .c => .bit_4_C
  | 4, .reg .d => .bit_4_D
  | 4, .reg .e => .bit_4_E
  | 4, .reg .h => .bit_4_H
  | 4, .reg .l => .bit_4_L
  | 4, .atHL => .bit_4_atHL
  | 4, .reg .a => .bit_4_A
  | 5, .reg .b => .bit_5_B
  | 5, .reg .c => .bit_5_C
  | 5, .reg .d => .bit_5_D
  | 5, .reg .e => .bit_5_E
  | 5, .reg .h => .bit_5_H
  | 5, .reg .l => .bit_5_L
  | 5, .atHL => .bit_5_atHL
  | 5, .reg .a => .bit_5_A
  | 6, .reg .b => .bit_6_B
  | 6, .reg .c => .bit_6_C
  | 6, .reg .d => .bit_6_D
  | 6, .reg .e => .bit_6_E
  | 6, .reg .h => .bit_6_H
  | 6, .reg .l => .bit_6_L
  | 6, .atHL => .bit_6_atHL
  | 6, .reg .a => .bit_6_A
  | 7, .reg .b => .bit_7_B
  | 7, .reg .c => .bit_7_C
  | 7, .reg .d => .bit_7_D
  | 7, .reg .e => .bit_7_E
  | 7, .reg .h => .bit_7_H
  | 7, .reg .l => .bit_7_L
  | 7, .atHL => .bit_7_atHL
  | 7, .reg .a => .bit_7_A

/-- `RES b,r`, `RES b,(HL)` (R323, R324). -/
def instrRes : Fin 8 → Loc → Instr
  | 0, .reg .b => .res_0_B
  | 0, .reg .c => .res_0_C
  | 0, .reg .d => .res_0_D
  | 0, .reg .e => .res_0_E
  | 0, .reg .h => .res_0_H
  | 0, .reg .l => .res_0_L
  | 0, .atHL => .res_0_atHL
  | 0, .reg .a => .res_0_A
  | 1, .reg .b => .res_1_B
  | 1, .reg .c => .res_1_C
  | 1, .reg .d => .res_1_D
  | 1, .reg .e => .res_1_E
  | 1, .reg .h => .res_1_H
  | 1, .reg .l => .res_1_L
  | 1, .atHL => .res_1_atHL
  | 1, .reg .a => .res_1_A
  | 2, .reg .b => .res_2_B
  | 2, .reg .c => .res_2_C
  | 2, .reg .d => .res_2_D
  | 2, .reg .e => .res_2_E
  | 2, .reg .h => .res_2_H
  | 2, .reg .l => .res_2_L
  | 2, .atHL => .res_2_atHL
  | 2, .reg .a => .res_2_A
  | 3, .reg .b => .res_3_B
  | 3, .reg .c => .res_3_C
  | 3, .reg .d => .res_3_D
  | 3, .reg .e => .res_3_E
  | 3, .reg .h => .res_3_H
  | 3, .reg .l => .res_3_L
  | 3, .atHL => .res_3_atHL
  | 3, .reg .a => .res_3_A
  | 4, .reg .b => .res_4_B
  | 4, .reg .c => .res_4_C
  | 4, .reg .d => .res_4_D
  | 4, .reg .e => .res_4_E
  | 4, .reg .h => .res_4_H
  | 4, .reg .l => .res_4_L
  | 4, .atHL => .res_4_atHL
  | 4, .reg .a => .res_4_A
  | 5, .reg .b => .res_5_B
  | 5, .reg .c => .res_5_C
  | 5, .reg .d => .res_5_D
  | 5, .reg .e => .res_5_E
  | 5, .reg .h => .res_5_H
  | 5, .reg .l => .res_5_L
  | 5, .atHL => .res_5_atHL
  | 5, .reg .a => .res_5_A
  | 6, .reg .b => .res_6_B
  | 6, .reg .c => .res_6_C
  | 6, .reg .d => .res_6_D
  | 6, .reg .e => .res_6_E
  | 6, .reg .h => .res_6_H
  | 6, .reg .l => .res_6_L
  | 6, .atHL => .res_6_atHL
  | 6, .reg .a => .res_6_A
  | 7, .reg .b => .res_7_B
  | 7, .reg .c => .res_7_C
  | 7, .reg .d => .res_7_D
  | 7, .reg .e => .res_7_E
  | 7, .reg .h => .res_7_H
  | 7, .reg .l => .res_7_L
  | 7, .atHL => .res_7_atHL
  | 7, .reg .a => .res_7_A

/-- `SET b,r`, `SET b,(HL)` (R325, R326). -/
def instrSet : Fin 8 → Loc → Instr
  | 0, .reg .b => .set_0_B
  | 0, .reg .c => .set_0_C
  | 0, .reg .d => .set_0_D
  | 0, .reg .e => .set_0_E
  | 0, .reg .h => .set_0_H
  | 0, .reg .l => .set_0_L
  | 0, .atHL => .set_0_atHL
  | 0, .reg .a => .set_0_A
  | 1, .reg .b => .set_1_B
  | 1, .reg .c => .set_1_C
  | 1, .reg .d => .set_1_D
  | 1, .reg .e => .set_1_E
  | 1, .reg .h => .set_1_H
  | 1, .reg .l => .set_1_L
  | 1, .atHL => .set_1_atHL
  | 1, .reg .a => .set_1_A
  | 2, .reg .b => .set_2_B
  | 2, .reg .c => .set_2_C
  | 2, .reg .d => .set_2_D
  | 2, .reg .e => .set_2_E
  | 2, .reg .h => .set_2_H
  | 2, .reg .l => .set_2_L
  | 2, .atHL => .set_2_atHL
  | 2, .reg .a => .set_2_A
  | 3, .reg .b => .set_3_B
  | 3, .reg .c => .set_3_C
  | 3, .reg .d => .set_3_D
  | 3, .reg .e => .set_3_E
  | 3, .reg .h => .set_3_H
  | 3, .reg .l => .set_3_L
  | 3, .atHL => .set_3_atHL
  | 3, .reg .a => .set_3_A
  | 4, .reg .b => .set_4_B
  | 4, .reg .c => .set_4_C
  | 4, .reg .d => .set_4_D
  | 4, .reg .e => .set_4_E
  | 4, .reg .h => .set_4_H
  | 4, .reg .l => .set_4_L
  | 4, .atHL => .set_4_atHL
  | 4, .reg .a => .set_4_A
  | 5, .reg .b => .set_5_B
  | 5, .reg .c => .set_5_C
  | 5, .reg .d => .set_5_D
  | 5, .reg .e => .set_5_E
  | 5, .reg .h => .set_5_H
  | 5, .reg .l => .set_5_L
  | 5, .atHL => .set_5_atHL
  | 5, .reg .a => .set_5_A
  | 6, .reg .b => .set_6_B
  | 6, .reg .c => .set_6_C
  | 6, .reg .d => .set_6_D
  | 6, .reg .e => .set_6_E
  | 6, .reg .h => .set_6_H
  | 6, .reg .l => .set_6_L
  | 6, .atHL => .set_6_atHL
  | 6, .reg .a => .set_6_A
  | 7, .reg .b => .set_7_B
  | 7, .reg .c => .set_7_C
  | 7, .reg .d => .set_7_D
  | 7, .reg .e => .set_7_E
  | 7, .reg .h => .set_7_H
  | 7, .reg .l => .set_7_L
  | 7, .atHL => .set_7_atHL
  | 7, .reg .a => .set_7_A

/-- `JP cc,nn` (R332). -/
def instrJpCond : Cond → Word → Instr
  | .nz, nn => .jp_NZ_nn nn
  | .z, nn => .jp_Z_nn nn
  | .nc, nn => .jp_NC_nn nn
  | .c, nn => .jp_C_nn nn

/-- `JR cc,e` (R335). -/
def instrJrCond : Cond → Byte → Instr
  | .nz, e => .jr_NZ_e e
  | .z, e => .jr_Z_e e
  | .nc, e => .jr_NC_e e
  | .c, e => .jr_C_e e

/-- `CALL cc,nn` (R337). -/
def instrCallCond : Cond → Word → Instr
  | .nz, nn => .call_NZ_nn nn
  | .z, nn => .call_Z_nn nn
  | .nc, nn => .call_NC_nn nn
  | .c, nn => .call_C_nn nn

/-- `RET cc` (R339). -/
def instrRetCond : Cond → Instr
  | .nz => .ret_NZ
  | .z => .ret_Z
  | .nc => .ret_NC
  | .c => .ret_C

/-- `RST t` (R340). -/
def instrRst : Fin 8 → Instr
  | 0 => .rst_00
  | 1 => .rst_08
  | 2 => .rst_10
  | 3 => .rst_18
  | 4 => .rst_20
  | 5 => .rst_28
  | 6 => .rst_30
  | 7 => .rst_38

/-- The illegal opcodes (R125, R356). -/
def instrIllegal : IllegalOp → Instr
  | .xD3 => .illegal_D3
  | .xDB => .illegal_DB
  | .xDD => .illegal_DD
  | .xE3 => .illegal_E3
  | .xE4 => .illegal_E4
  | .xEB => .illegal_EB
  | .xEC => .illegal_EC
  | .xED => .illegal_ED
  | .xF4 => .illegal_F4
  | .xFC => .illegal_FC
  | .xFD => .illegal_FD

/-- The row of a form: the inverse of `Instr.form`. -/
def Form.instr : Form → Instr
  | .ldRegReg dst src => instrLdRegReg dst src
  | .ldRegImm dst n => instrLdRegImm dst n
  | .ldRegHl dst => instrLdRegHl dst
  | .ldHlReg r => instrLdHlReg r
  | .ldHlImm n => .ld_atHL_n n
  | .ldAInd p => instrLdAInd p
  | .ldIndA p => instrLdIndA p
  | .ldAAbs nn => .ld_A_at_nn nn
  | .ldAbsA nn => .ld_at_nn_A nn
  | .ldhAC => .ldh_A_atC
  | .ldhCA => .ldh_atC_A
  | .ldhAImm n => .ldh_A_at_n n
  | .ldhImmA n => .ldh_at_n_A n
  | .ldPairImm p nn => instrLdPairImm p nn
  | .ldAbsSp nn => .ld_at_nn_SP nn
  | .ldSpHl => .ld_SP_HL
  | .push p => instrPush p
  | .pop p => instrPop p
  | .alu op src => instrAlu op src
  | .inc8 l => instrInc8 l
  | .dec8 l => instrDec8 l
  | .daa => .daa
  | .cpl => .cpl
  | .scf => .scf
  | .ccf => .ccf
  | .addHl p => instrAddHl p
  | .inc16 p => instrInc16 p
  | .dec16 p => instrDec16 p
  | .addSpE e => .add_SP_e e
  | .ldHlSpE e => .ld_HL_SPe e
  | .rlca => .rlca
  | .rrca => .rrca
  | .rla => .rla
  | .rra => .rra
  | .shift op l => instrShift op l
  | .bit b l => instrBit b l
  | .res b l => instrRes b l
  | .set b l => instrSet b l
  | .jp nn => .jp_nn nn
  | .jpCond cc nn => instrJpCond cc nn
  | .jpHl => .jp_HL
  | .jr e => .jr_e e
  | .jrCond cc e => instrJrCond cc e
  | .call nn => .call_nn nn
  | .callCond cc nn => instrCallCond cc nn
  | .ret => .ret
  | .retCond cc => instrRetCond cc
  | .rst t => instrRst t
  | .reti => .reti
  | .nop => .nop
  | .halt => .halt
  | .stop ignored => .stop ignored
  | .di => .di
  | .ei => .ei
  | .prefixCb cb => .prefix_CB cb
  | .illegal k => instrIllegal k

/-- The words of an instruction, lowest address first. -/
def encode (i : Instr) : List Byte := i.form.bytes

end Sys2Proof
end

