-- ==== Sys2Proof/Config.lean ====
section
/-! DEFINITION. The implementation parameters of R7 (00_scope.md): the constants this hardware takes, and the
arguments the spec leaves to the model (`InitRegs`; the memory draws and the cartridge are arguments of
`State.powerOn`, `STOP_FREEZES_TIMA` is held in State; log entries 1 to 6 and 13). -/

namespace Sys2Proof.Config

/-- `CLOCK_HZ` (R7, R482): cycles per second. -/
def clockHz : Nat := 4194304
/-- `DIV_PERIOD` (R7, R430). -/
def divPeriod : Nat := 256
/-- `INT_DISPATCH_CYCLES` (R7, R414): the source's value; DESIGN CHOICE of the spec, see log 13. -/
def intDispatchCycles : Nat := 5
/-- `IDLE_STEP_CYCLES` (R7, R401). -/
def idleStepCycles : Nat := 4
/-- `CB_BIT_HL_CYCLES` (R7, R322): the source's value, see log 13. -/
def cbBitHlCycles : Nat := 16
/-- `PPU_OAM_DOTS` (R7, R441). -/
def ppuOamDots : Nat := 80
/-- `PPU_XFER_DOTS` (R7, R442). -/
def ppuXferDots : Nat := 172
/-- `PPU_HBLANK_DOTS` (R7, R443). -/
def ppuHblankDots : Nat := 204
/-- `PPU_LINE_DOTS` (R7, R444). -/
def ppuLineDots : Nat := 456
/-- `PPU_VISIBLE_LINES` (R7). -/
def ppuVisibleLines : Nat := 144
/-- `PPU_TOTAL_LINES` (R7). -/
def ppuTotalLines : Nat := 154
/-- `OPEN_BUS_VALUE` (R7, R73). -/
def openBusValue : Byte := 0xFF
/-- Size of one cartridge RAM bank (R78): 8 KiB. -/
def ramBankSize : Nat := 0x2000
/-- Size of one ROM bank (R85): 16 KiB. -/
def romBankSize : Nat := 0x4000

/-- `InitRegs` (R7, R28): the register file the machine starts with. -/
structure InitRegs where
  a : Byte
  f : Byte
  b : Byte
  c : Byte
  d : Byte
  e : Byte
  h : Byte
  l : Byte
  sp : Word
  pc : Word
  deriving DecidableEq, Repr

/-- The default of R28: the values after the boot ROM has run (log 3). -/
def InitRegs.postBoot : InitRegs :=
  { a := 0x01, f := 0xB0, b := 0x00, c := 0x13, d := 0x00, e := 0xD8, h := 0x01, l := 0x4D,
    sp := 0xFFFE, pc := 0x0100 }

end Sys2Proof.Config
end

