-- ==== Sys2Proof/Machine/State.lean ====
section
/-! DEFINITION. The machine's state as plain data, its reset, and the reasons a step can stop
(10_state.md; R470 of 60_exceptions.md; R500, R501 of 70_reset_and_hazards.md). -/

namespace Sys2Proof.Machine

/-- A map from keys to values that lists only the keys whose value differs from a default, in rising key
order (the canonical form is `Sparse.wf`, Machine/Memory.lean). -/
abbrev Sparse (α : Type) := List (Nat × α)

/-- A byte array in canonical form; a list of `Host.Cell`. What an unlisted key reads as is
`Memory.unlisted` (Machine/Memory.lean; log 1 and 11). -/
abbrev Memory := List Host.Cell

/-- A colour 0..3: White, LightGray, DarkGray, Black (R43). -/
abbrev Colour := BitVec 2

/-- The CPU: registers of R20 and the two execution-state booleans of R30. -/
structure Cpu where
  a : Byte
  /-- The flag byte: bit 7 Z, 6 N, 5 H, 4 C, bits 3:0 always 0 (R24). Read and written only through
  `State.getF` and `State.setF`, which mask the low nibble. -/
  f : Byte
  b : Byte
  c : Byte
  d : Byte
  e : Byte
  h : Byte
  l : Byte
  sp : Word
  pc : Word
  halted : Bool
  stopped : Bool
  deriving DecidableEq, Repr

/-- The interrupt controller (R31 to R33): IF, IE, IME and `ime_sched`. -/
structure Irq where
  iflag : BitVec 5
  ie : Byte
  ime : Bool
  imeSched : Bool
  deriving DecidableEq, Repr

/-- The Timer (R35). `stopFreezesTima` is the model's parameter `STOP_FREEZES_TIMA` (R7, R434): constant
data that no step writes (log 6). -/
structure Timer where
  div : Byte
  tima : Byte
  tma : Byte
  tac : BitVec 3
  divAcc : Nat
  timaAcc : Nat
  divFrozen : Bool
  stopFreezesTima : Bool
  deriving DecidableEq, Repr

/-- `ppu_mode` (R40, R42): 0 HBlank, 1 VBlank, 2 OAM search, 3 pixel transfer. -/
inductive PpuMode where
  | hblank
  | vblank
  | oamSearch
  | transfer
  deriving DecidableEq, Repr

/-- The PPU: the registers of R38 and the hidden state of R42 and R43. `statEn` is STAT bits 6:3. -/
structure Ppu where
  lcdc : Byte
  statEn : BitVec 4
  scy : Byte
  scx : Byte
  ly : Byte
  lyc : Byte
  dma : Byte
  bgp : Byte
  obp0 : Byte
  obp1 : Byte
  wy : Byte
  wx : Byte
  mode : PpuMode
  dots : Nat
  coincidence : Bool
  /-- 144 rows of 256 colours, by row number; an unlisted row is all 0 (R43; log 11). -/
  framebuffer : Sparse (List Colour)
  deriving DecidableEq, Repr

/-- The serial registers and the log of the test hook (R45). -/
structure Serial where
  sb : Byte
  sc : Byte
  log : List Byte
  deriving DecidableEq, Repr

/-- P1's stored select field (bits 5:4) and the host's `JoypadInput` (R46, R461). -/
structure Joypad where
  select : BitVec 2
  input : BitVec 4
  deriving DecidableEq, Repr

/-- The mapper the header's type byte selects (R78). -/
inductive Mapper where
  | romOnly
  | mbc1
  deriving DecidableEq, Repr

/-- An inserted cartridge (R47, R78): its ROM image, its RAM, and MBC1's registers. -/
structure Cartridge where
  mapper : Mapper
  romShift : Nat
  /-- ROM bytes by offset into the image (R47; log 11). -/
  rom : Memory
  ramBanks : Nat
  /-- RAM bytes by offset, bank `rb` at `rb * 0x2000` (R86). -/
  ram : Memory
  ramEnable : Bool
  bank1 : BitVec 5
  bank2 : BitVec 2
  /-- MBC1's `mode`: false is 0, true is 1 (R83). -/
  bankMode : Bool
  deriving DecidableEq, Repr

/-- The one fault kind (R470). -/
inductive FaultKind where
  | illegalOpcode
  deriving DecidableEq, Repr

/-- The machine's `fault` record (R48, R470): the kind and its info `{opcode, address}`. -/
structure FaultRecord where
  kind : FaultKind
  opcode : Byte
  address : Word
  deriving DecidableEq, Repr

/-- All the state the spec gives the machine, one field per component of R1 and region of R47.
`cycles` is the count the CPU part of the step returns (R401, R480; log 5). -/
structure State where
  cpu : Cpu
  irq : Irq
  timer : Timer
  ppu : Ppu
  serial : Serial
  joypad : Joypad
  /-- VideoRAM by offset from 0x8000 (R74). -/
  vram : Memory
  /-- The plain IO bytes of 0xFF00 to 0xFF7F by address (R75). -/
  ioPlain : Memory
  /-- The fallback array by address: 0xC000 to 0xFEFF and 0xFF80 to 0xFFFE (R76). -/
  ram : Memory
  cartridge : Option Cartridge
  fault : Option FaultRecord
  cycles : Nat
  deriving DecidableEq, Repr

/-- Why a step ends in a fault.
`illegalOpcode record final`: raised by the eleven illegal opcodes (R356, R470); `final` is the machine's
final observation: the state at the fault, with the fetch's PC + 1 and any dispatch of the same step kept,
`fault` set and no cycle count. Safe: the spec itself makes the machine stop there.
`noStep record`: raised by `step` in a state whose `fault` is set, where "no step exists" (R400, R470). Safe. -/
inductive Fault where
  | illegalOpcode (record : FaultRecord) (final : State)
  | noStep (record : FaultRecord)
  deriving DecidableEq, Repr

/-- Why a step has no meaning. `notModelled mnemonic`: raised only by an arm of `exec` whose instruction has
no meaning yet (no arm does). Safe: the model says nothing of such a step. -/
inductive Refusal where
  | notModelled (mnemonic : String)
  deriving DecidableEq, Repr

/-- The arguments a machine is started with: the inserted cartridge, the register file, and the draws
`InitMem` of every byte whose initial contents the spec leaves open (R7, R11, R28, R47; log 1 to 4). -/
structure PowerOn where
  cartridge : Option Cartridge
  regs : Config.InitRegs
  vram : Memory
  ioPlain : Memory
  ram : Memory
  obp0 : Byte
  obp1 : Byte
  stopFreezesTima : Bool
  deriving DecidableEq, Repr

/-- The default arguments: no cartridge, the registers of R28, every open byte 0x00 (one draw of `InitMem`),
`STOP_FREEZES_TIMA` false (R7). DESIGN CHOICE for the draws, log 1 and 2. -/
def PowerOn.default : PowerOn :=
  { cartridge := none, regs := Config.InitRegs.postBoot, vram := [], ioPlain := [], ram := [],
    obp0 := 0x00, obp1 := 0x00, stopFreezesTima := false }

/-- The MBC1 registers at reset (R47, R501); the other fields of a cartridge are the load's. -/
def Cartridge.reset (c : Cartridge) : Cartridge :=
  { c with ramEnable := false, bank1 := 1, bank2 := 0, bankMode := false }

/-- Reset with given arguments (R500, R501): every state takes the value 10_state.md gives it. F's low
nibble is masked (R24). -/
def State.powerOn (p : PowerOn) : State where
  cpu :=
    { a := p.regs.a, f := p.regs.f &&& 0xF0, b := p.regs.b, c := p.regs.c, d := p.regs.d, e := p.regs.e,
      h := p.regs.h, l := p.regs.l, sp := p.regs.sp, pc := p.regs.pc, halted := false, stopped := false }
  irq := { iflag := 0x01, ie := 0x00, ime := false, imeSched := false }
  timer :=
    { div := 0xAB, tima := 0x00, tma := 0x00, tac := 0, divAcc := 0, timaAcc := 0, divFrozen := false,
      stopFreezesTima := p.stopFreezesTima }
  ppu :=
    { lcdc := 0x91, statEn := 0, scy := 0x00, scx := 0x00, ly := 0x00, lyc := 0x00, dma := 0xFF,
      bgp := 0xFC, obp0 := p.obp0, obp1 := p.obp1, wy := 0x00, wx := 0x00, mode := .oamSearch, dots := 0,
      coincidence := true, framebuffer := [] }
  serial := { sb := 0x00, sc := 0x7E, log := [] }
  joypad := { select := 0, input := 0xF }
  vram := p.vram
  ioPlain := p.ioPlain
  ram := p.ram
  cartridge := p.cartridge.map Cartridge.reset
  fault := none
  cycles := 0

/-- The machine right after reset, with the default arguments (R500; log 4 says how a program is loaded). -/
def State.reset : State := State.powerOn PowerOn.default

end Sys2Proof.Machine
end

