-- ==== Sys2Proof/Machine/Memory.lean ====
section
/-! DEFINITION. The one sparse array the memories and the framebuffer are held in: reads, writes and the
canonical form (R47 of 10_state.md; log 1 and 11). -/

namespace Sys2Proof.Machine

/-- The value at a key; an unlisted key reads as the default `d`. -/
def Sparse.get {α : Type} (d : α) : Sparse α → Nat → α
  | [], _ => d
  | (k', v) :: rest, k => if k' = k then v else Sparse.get d rest k

/-- Write a key. Writing the default removes the entry, so that equal arrays are equal lists. -/
def Sparse.set {α : Type} [DecidableEq α] (d : α) : Sparse α → Nat → α → Sparse α
  | [], k, v => if v = d then [] else [(k, v)]
  | (k', v') :: rest, k, v =>
    if k < k' then (if v = d then (k', v') :: rest else (k, v) :: (k', v') :: rest)
    else if k = k' then (if v = d then rest else (k, v) :: rest)
    else (k', v') :: Sparse.set d rest k v

/-- Every listed key is above `lo`, keys rise strictly, and no entry holds the default. -/
def Sparse.wfFrom {α : Type} [DecidableEq α] (d : α) : Option Nat → Sparse α → Bool
  | _, [] => true
  | lo, (k, v) :: rest =>
    (match lo with
      | none => true
      | some b => decide (b < k)) && decide (v ≠ d) && Sparse.wfFrom d (some k) rest

/-- The canonical form: keys strictly rising, no entry equal to what an unlisted key reads as. -/
def Sparse.wf {α : Type} [DecidableEq α] (d : α) (m : Sparse α) : Bool := Sparse.wfFrom d none m

/-- Every listed key satisfies `p` (the array has no cells elsewhere). -/
def Sparse.within {α : Type} (p : Nat → Bool) (m : Sparse α) : Bool := m.all fun c => p c.1

/-- The canonical array whose value at key `i` is the `i`-th element of a list. -/
def Sparse.ofListFrom {α : Type} [DecidableEq α] (d : α) : Nat → List α → Sparse α
  | _, [] => []
  | k, v :: rest => if v = d then Sparse.ofListFrom d (k + 1) rest else (k, v) :: Sparse.ofListFrom d (k + 1) rest

/-- What an unlisted byte reads as. For the RAMs it is the draw of `InitMem` that State.reset takes
(DESIGN CHOICE, log 1); for a ROM image it is only how 0x00 is written down (log 11). -/
def Memory.unlisted : Byte := 0x00

/-- One byte of an array. -/
def Memory.read (m : Memory) (k : Nat) : Byte := Sparse.get Memory.unlisted m k

/-- Write one byte of an array. -/
def Memory.write (m : Memory) (k : Nat) (v : Byte) : Memory := Sparse.set Memory.unlisted m k v

/-- The canonical form of a byte array. -/
def Memory.wf (m : Memory) : Bool := Sparse.wf Memory.unlisted m

/-- The array of a list of bytes, offset 0 first. -/
def Memory.ofList (bytes : List Byte) : Memory := Sparse.ofListFrom Memory.unlisted 0 bytes

end Sys2Proof.Machine
end

