-- ==== Sys2Proof/Machine/Bus.lean ====
section
/-! DEFINITION. The Bus: address dispatch, the cartridge with MBC1, the IO registers, and the two primitives
MemRead and MemWrite (20_memory.md R70 to R87; 10_state.md R32 to R46). No access fails (R77). -/

namespace Sys2Proof.Machine

/-- `ppu_mode` as the two STAT bits (R40). -/
def PpuMode.bits : PpuMode → BitVec 2
  | .hblank => 0
  | .vblank => 1
  | .oamSearch => 2
  | .transfer => 3

/-- The owners of R72. -/
inductive Owner where
  | cartridgeRom
  | videoRam
  | cartridgeRam
  | io
  | fallback
  deriving DecidableEq, Repr

/-- R72: the ranges in their fixed priority order. -/
def busOwner (a : Nat) : Owner :=
  if a < 0x8000 then .cartridgeRom
  else if a < 0xA000 then .videoRam
  else if a < 0xC000 then .cartridgeRam
  else if (0xFF00 ≤ a ∧ a < 0xFF80) ∨ a = 0xFFFF then .io
  else .fallback

/-! ### Cartridge (R78 to R87) -/

/-- `rom_banks = 2 << rom_shift`: the number of 16 KiB ROM banks (R81). -/
def Cartridge.romBanks (c : Cartridge) : Nat := 2 <<< c.romShift

/-- The ROM bank a read of 0x4000 to 0x7FFF sees (R85). -/
def Cartridge.upperBank (c : Cartridge) : Nat :=
  if c.bankMode then c.bank1.toNat
  else ((c.bank2.toNat <<< 5) ||| c.bank1.toNat) &&& (c.romBanks - 1)

/-- Read of 0x0000 to 0x7FFF: ROM-only returns ROM byte `addr` (R79); MBC1 banks the upper half (R84, R85). -/
def Cartridge.readRom (c : Cartridge) (a : Nat) : Byte :=
  match c.mapper with
  | .romOnly => c.rom.read a
  | .mbc1 =>
    if a < Config.romBankSize then c.rom.read a
    else c.rom.read (c.upperBank * Config.romBankSize + (a - Config.romBankSize))

/-- R81: the five bank bits of a write, masked to `banks-1`, then 0 forced to 1. -/
def Cartridge.bank1Of (c : Cartridge) (v : Byte) : BitVec 5 :=
  let b := v.toNat % 32 &&& (c.romBanks - 1)
  BitVec.ofNat 5 (if b = 0 then 1 else b)

/-- Write to 0x0000 to 0x7FFF: ignored by a ROM-only cartridge (R79), an MBC1 register write otherwise
(R80 to R83). No ROM byte changes (R87). -/
def Cartridge.writeRom (c : Cartridge) (a : Nat) (v : Byte) : Cartridge :=
  match c.mapper with
  | .romOnly => c
  | .mbc1 =>
    if a < 0x2000 then { c with ramEnable := decide (v.extractLsb' 0 4 = 0xA#4) }
    else if a < 0x4000 then { c with bank1 := c.bank1Of v }
    else if a < 0x6000 then { c with bank2 := v.extractLsb' 0 2 }
    else { c with bankMode := v.getLsbD 0 }

/-- The offset into cartridge RAM that an access to 0xA000 to 0xBFFF reaches, if the RAM is reachable
(R86); a ROM-only cartridge has none there (R79). -/
def Cartridge.ramOffset (c : Cartridge) (a : Nat) : Option Nat :=
  match c.mapper with
  | .romOnly => none
  | .mbc1 =>
    if c.ramEnable = true ∧ 0 < c.ramBanks then
      some (((if c.bankMode then c.bank2.toNat else 0) % c.ramBanks) * Config.ramBankSize + (a - 0xA000))
    else none

/-- Read of 0xA000 to 0xBFFF (R79, R86). -/
def Cartridge.readRam (c : Cartridge) (a : Nat) : Byte :=
  match c.ramOffset a with
  | some k => c.ram.read k
  | none => Config.openBusValue

/-- Write to 0xA000 to 0xBFFF (R79, R86). -/
def Cartridge.writeRam (c : Cartridge) (a : Nat) (v : Byte) : Cartridge :=
  match c.ramOffset a with
  | some k => { c with ram := c.ram.write k v }
  | none => c

/-! ### IO registers (R75) -/

/-- The named registers of R75; `plain` is every other address of the IO block. -/
inductive IoReg where
  | p1
  | sb
  | sc
  | div
  | tima
  | tma
  | tac
  | iflag
  | lcdc
  | stat
  | scy
  | scx
  | ly
  | lyc
  | dma
  | bgp
  | obp0
  | obp1
  | wy
  | wx
  | ie
  | plain
  deriving DecidableEq, Repr

/-- R75's address column. -/
def ioReg (a : Nat) : IoReg :=
  match a with
  | 0xFF00 => .p1
  | 0xFF01 => .sb
  | 0xFF02 => .sc
  | 0xFF04 => .div
  | 0xFF05 => .tima
  | 0xFF06 => .tma
  | 0xFF07 => .tac
  | 0xFF0F => .iflag
  | 0xFF40 => .lcdc
  | 0xFF41 => .stat
  | 0xFF42 => .scy
  | 0xFF43 => .scx
  | 0xFF44 => .ly
  | 0xFF45 => .lyc
  | 0xFF46 => .dma
  | 0xFF47 => .bgp
  | 0xFF48 => .obp0
  | 0xFF49 => .obp1
  | 0xFF4A => .wy
  | 0xFF4B => .wx
  | 0xFFFF => .ie
  | _ => .plain

/-- P1 reads `0xC0 | select[5:4] | JoypadInput[3:0]` (R46). -/
def State.readP1 (s : State) : Byte := 0b11#2 ++ s.joypad.select ++ s.joypad.input

/-- STAT reads `0x80 | enables[6:3] | coincidence << 2 | mode` (R40). -/
def State.readStat (s : State) : Byte :=
  1#1 ++ s.ppu.statEn ++ BitVec.ofBool s.ppu.coincidence ++ s.ppu.mode.bits

/-- R75's "read returns" column. -/
def State.readIo (s : State) (a : Nat) : Byte :=
  match ioReg a with
  | .p1 => s.readP1
  | .sb => s.serial.sb
  | .sc => s.serial.sc
  | .div => s.timer.div
  | .tima => s.timer.tima
  | .tma => s.timer.tma
  | .tac => 0b11111#5 ++ s.timer.tac
  | .iflag => 0b111#3 ++ s.irq.iflag
  | .lcdc => s.ppu.lcdc
  | .stat => s.readStat
  | .scy => s.ppu.scy
  | .scx => s.ppu.scx
  | .ly => s.ppu.ly
  | .lyc => s.ppu.lyc
  | .dma => s.ppu.dma
  | .bgp => s.ppu.bgp
  | .obp0 => s.ppu.obp0
  | .obp1 => s.ppu.obp1
  | .wy => s.ppu.wy
  | .wx => s.ppu.wx
  | .ie => s.irq.ie
  | .plain => s.ioPlain.read a

/-- SC is stored; 0x81 also appends SB to `serial_log` (R460). -/
def Serial.writeSc (p : Serial) (v : Byte) : Serial :=
  if v = 0x81 then { p with sc := v, log := p.log ++ [p.sb] } else { p with sc := v }

/-- R75's "write does" column. -/
def State.writeIo (s : State) (a : Nat) (v : Byte) : State :=
  match ioReg a with
  | .p1 => { s with joypad := { s.joypad with select := v.extractLsb' 4 2 } }
  | .sb => { s with serial := { s.serial with sb := v } }
  | .sc => { s with serial := s.serial.writeSc v }
  | .div => { s with timer := { s.timer with div := 0, divAcc := 0 } }
  | .tima => { s with timer := { s.timer with tima := v } }
  | .tma => { s with timer := { s.timer with tma := v } }
  | .tac => { s with timer := { s.timer with tac := v.extractLsb' 0 3 } }
  | .iflag => { s with irq := { s.irq with iflag := v.extractLsb' 0 5 } }
  | .lcdc => { s with ppu := { s.ppu with lcdc := v } }
  | .stat => { s with ppu := { s.ppu with statEn := v.extractLsb' 3 4 } }
  | .scy => { s with ppu := { s.ppu with scy := v } }
  | .scx => { s with ppu := { s.ppu with scx := v } }
  | .ly => s
  | .lyc => { s with ppu := { s.ppu with lyc := v } }
  | .dma => { s with ppu := { s.ppu with dma := v } }
  | .bgp => { s with ppu := { s.ppu with bgp := v } }
  | .obp0 => { s with ppu := { s.ppu with obp0 := v } }
  | .obp1 => { s with ppu := { s.ppu with obp1 := v } }
  | .wy => { s with ppu := { s.ppu with wy := v } }
  | .wx => { s with ppu := { s.ppu with wx := v } }
  | .ie => { s with irq := { s.irq with ie := v } }
  | .plain => { s with ioPlain := s.ioPlain.write a v }

/-! ### The two primitives (R70, R71) -/

/-- `MemRead(addr, 1)` (R70, R72 to R76): one byte from the owner of the address. No read changes state
(R91). With no cartridge a cartridge read returns `OPEN_BUS_VALUE` (R73). -/
def memRead (addr : Word) (s : State) : Byte :=
  match busOwner addr.toNat with
  | .cartridgeRom =>
    match s.cartridge with
    | some c => c.readRom addr.toNat
    | none => Config.openBusValue
  | .videoRam => s.vram.read (addr.toNat - 0x8000)
  | .cartridgeRam =>
    match s.cartridge with
    | some c => c.readRam addr.toNat
    | none => Config.openBusValue
  | .io => s.readIo addr.toNat
  | .fallback => s.ram.read addr.toNat

/-- `MemWrite(addr, 1, v)` (R71, R72 to R76): one byte to the owner of the address, which stores it, acts on
it or drops it. With no cartridge a cartridge write is dropped (R73). -/
def memWrite (addr : Word) (v : Byte) (s : State) : State :=
  match busOwner addr.toNat with
  | .cartridgeRom => { s with cartridge := s.cartridge.map fun c => c.writeRom addr.toNat v }
  | .videoRam => { s with vram := s.vram.write (addr.toNat - 0x8000) v }
  | .cartridgeRam => { s with cartridge := s.cartridge.map fun c => c.writeRam addr.toNat v }
  | .io => s.writeIo addr.toNat v
  | .fallback => { s with ram := s.ram.write addr.toNat v }

end Sys2Proof.Machine
end

