-- ==== Sys2Proof/Machine/Flags.lean ====
section
/-! DEFINITION. The flag byte and every flag computation of the spec: R24 (10_state.md), R250 to R252 and R277
to R284 (42_alu8.md), R290, R291 (43_alu16.md), R300 to R321 (44_rotate_shift_bit.md), R118 (30_encoding.md). -/

namespace Sys2Proof.Machine

/-- The four flags of R24. -/
structure Flags where
  z : Bool
  n : Bool
  h : Bool
  c : Bool
  deriving DecidableEq, Repr

/-- The flags in their places in F: Z is bit 7, N 6, H 5, C 4, and bits 3:0 are 0 (R24). -/
def Flags.toByte (f : Flags) : Byte :=
  BitVec.ofBool f.z ++ BitVec.ofBool f.n ++ BitVec.ofBool f.h ++ BitVec.ofBool f.c ++ 0#4

/-- The flags of a byte in F's layout (R24). -/
def Flags.ofByte (v : Byte) : Flags :=
  { z := v.getLsbD 7, n := v.getLsbD 6, h := v.getLsbD 5, c := v.getLsbD 4 }

/-- F as an instruction reads it: bits 3:0 read 0 (R24). -/
def State.getF (s : State) : Byte := s.cpu.f &&& 0xF0

/-- A write of F: bits 3:0 are ignored (R24, D43). -/
def State.setF (s : State) (v : Byte) : State := { s with cpu := { s.cpu with f := v &&& 0xF0 } }

/-- The flags of a state. -/
def State.flags (s : State) : Flags := Flags.ofByte s.cpu.f

/-- `F <- f`. -/
def State.setFlags (s : State) (f : Flags) : State := s.setF f.toByte

/-- R118, R330: the truth value of a condition. -/
def condHolds (cc : Cond) (f : Flags) : Bool :=
  match cc with
  | .nz => !f.z
  | .z => f.z
  | .nc => !f.c
  | .c => f.c

/-! ### 8-bit arithmetic and logic: each function returns the result and the four flags -/

/-- `add8(a, b, c)` (R250), computed in unbounded integers. -/
def add8 (a b : Byte) (c : Bool) : Byte × Flags :=
  let sum := a.toNat + b.toNat + c.toNat
  let res := BitVec.ofNat 8 sum
  (res,
    { z := decide (res = 0), n := false, h := decide (a.toNat % 16 + b.toNat % 16 + c.toNat > 0x0F),
      c := decide (sum > 0xFF) })

/-- `sub8(a, b, c)` (R251), computed in unbounded integers. -/
def sub8 (a b : Byte) (c : Bool) : Byte × Flags :=
  let res := BitVec.ofInt 8 ((a.toNat : Int) - b.toNat - c.toNat)
  (res,
    { z := decide (res = 0), n := true, h := decide (a.toNat % 16 < b.toNat % 16 + c.toNat),
      c := decide (a.toNat < b.toNat + c.toNat) })

/-- `and8(a, b)` (R252). -/
def and8 (a b : Byte) : Byte × Flags :=
  (a &&& b, { z := decide (a &&& b = 0), n := false, h := true, c := false })

/-- `xor8(a, b)` (R252). -/
def xor8 (a b : Byte) : Byte × Flags :=
  (a ^^^ b, { z := decide (a ^^^ b = 0), n := false, h := false, c := false })

/-- `or8(a, b)` (R252). -/
def or8 (a b : Byte) : Byte × Flags :=
  (a ||| b, { z := decide (a ||| b = 0), n := false, h := false, c := false })

/-- The function of each ALU operation (R119, R253 to R276), with the carry flag before it. -/
def aluResult (op : AluOp) (a b : Byte) (carry : Bool) : Byte × Flags :=
  match op with
  | .add => add8 a b false
  | .adc => add8 a b carry
  | .sub => sub8 a b false
  | .sbc => sub8 a b carry
  | .and => and8 a b
  | .xor => xor8 a b
  | .or => or8 a b
  | .cp => sub8 a b false

/-- INC (R277): C is unchanged. -/
def inc8 (old : Byte) (f : Flags) : Byte × Flags :=
  let res := old + 1
  (res, { f with z := decide (res = 0), n := false, h := decide (old &&& 0x0F = 0x0F) })

/-- DEC (R279): C is unchanged. -/
def dec8 (old : Byte) (f : Flags) : Byte × Flags :=
  let res := old - 1
  (res, { f with z := decide (res = 0), n := true, h := decide (old &&& 0x0F = 0x00) })

/-- The value DAA works with after its first correction, and the carry it leaves (R281). -/
def daaHigh (a : Byte) (f : Flags) : Byte × Bool :=
  if f.n = false then
    if f.c = true ∨ a.toNat > 0x99 then (a + 0x60, true) else (a, f.c)
  else if f.c = true then (a - 0x60, f.c) else (a, f.c)

/-- DAA (R281): two corrections, N unchanged, H cleared. Adding or subtracting 0x60 leaves the low nibble,
so the second test may read either value. -/
def daa (a : Byte) (f : Flags) : Byte × Flags :=
  let (a1, c1) := daaHigh a f
  let a2 :=
    if f.n = false then (if f.h = true ∨ (a1 &&& 0x0F).toNat > 0x09 then a1 + 0x06 else a1)
    else (if f.h = true then a1 - 0x06 else a1)
  (a2, { f with z := decide (a2 = 0), h := false, c := c1 })

/-! ### 16-bit arithmetic -/

/-- `ADD HL,rr` (R291): H is the carry out of bit 11, C out of bit 15, N = 0, Z unchanged. -/
def addHl (hl v : Word) (f : Flags) : Word × Flags :=
  let sum := hl.toNat + v.toNat
  (BitVec.ofNat 16 sum,
    { f with n := false, h := decide (hl.toNat % 0x1000 + v.toNat % 0x1000 > 0x0FFF),
             c := decide (sum > 0xFFFF) })

/-- `add_sp_e(sp, e8)` (R290): the flags are those of the unsigned low-byte add. -/
def addSpE (sp : Word) (e8 : Byte) : Word × Flags :=
  (sp + e8.signExtend 16,
    { z := false, n := false, h := decide (sp.toNat % 16 + e8.toNat % 16 > 0x0F),
      c := decide (sp.toNat % 256 + e8.toNat > 0xFF) })

/-! ### Rotates, shifts, SWAP -/

/-- A bit as the lowest bit of a byte. -/
def bitByte (c : Bool) : Byte := if c then 1 else 0

/-- The result and the bit shifted out of each rotate, shift and SWAP, with the carry flag before it
(R300 to R320). SWAP leaves C = 0 (R317). -/
def shiftResult (op : ShiftOp) (v : Byte) (carry : Bool) : Byte × Bool :=
  match op with
  | .rlc => ((v <<< 1) ||| bitByte (v.getLsbD 7), v.getLsbD 7)
  | .rrc => ((v >>> 1) ||| (bitByte (v.getLsbD 0) <<< 7), v.getLsbD 0)
  | .rl => ((v <<< 1) ||| bitByte carry, v.getLsbD 7)
  | .rr => ((v >>> 1) ||| (bitByte carry <<< 7), v.getLsbD 0)
  | .sla => (v <<< 1, v.getLsbD 7)
  | .sra => ((v >>> 1) ||| (v &&& 0x80), v.getLsbD 0)
  | .swap => ((v <<< 4) ||| (v >>> 4), false)
  | .srl => (v >>> 1, v.getLsbD 0)

/-- Flags of a CB rotate, shift or SWAP: Z from the result, N = H = 0, C the bit shifted out (R304). -/
def shiftFlags (res : Byte) (c : Bool) : Flags := { z := decide (res = 0), n := false, h := false, c := c }

/-- Flags of an accumulator rotate: Z = N = H = 0 (R300 to R303, C5 of 90_conflicts.md). -/
def accRotateFlags (c : Bool) : Flags := { z := false, n := false, h := false, c := c }

/-- Flags of BIT: Z = NOT bit, N = 0, H = 1, C unchanged (R321). -/
def bitTestFlags (v : Byte) (b : Fin 8) (f : Flags) : Flags :=
  { f with z := !v.getLsbD b.val, n := false, h := true }

end Sys2Proof.Machine
end

