-- ==== Sys2Proof/Machine/Ops.lean ====
section
/-! DEFINITION. The named operations over registers, the stack and the interrupt controller; the machine's
one exception entry (interrupt dispatch, R413), the return from it (R341), and the raising of a fault (R470).
Rules: R20 to R28 of 10_state.md; R236, R237 of 41_load16.md; R410 to R420 of 60_exceptions.md. -/

namespace Sys2Proof.Machine

/-- What executing an instruction answers. -/
abbrev Result := Host.Outcome State Fault Refusal

/-- Continue a result that is a next state; a fault or a refusal passes through. -/
def mapNext (f : State → State) : Result → Result
  | .next s => .next (f s)
  | .fault r => .fault r
  | .refused r => .refused r

/-- `cycles <- n` (R8, R401): the instruction adds its count to the step's and completes. -/
def retire (n : Nat) (s : State) : Result := .next { s with cycles := s.cycles + n }

/-! ### Registers -/

/-- `x[r]` for an 8-bit register (R115). -/
def State.reg (s : State) : Reg8 → Byte
  | .b => s.cpu.b
  | .c => s.cpu.c
  | .d => s.cpu.d
  | .e => s.cpu.e
  | .h => s.cpu.h
  | .l => s.cpu.l
  | .a => s.cpu.a

/-- `x[r] <- v`: the other registers, the other half of the pair among them, are unchanged (R22). -/
def State.setReg (s : State) (r : Reg8) (v : Byte) : State :=
  match r with
  | .b => { s with cpu := { s.cpu with b := v } }
  | .c => { s with cpu := { s.cpu with c := v } }
  | .d => { s with cpu := { s.cpu with d := v } }
  | .e => { s with cpu := { s.cpu with e := v } }
  | .h => { s with cpu := { s.cpu with h := v } }
  | .l => { s with cpu := { s.cpu with l := v } }
  | .a => { s with cpu := { s.cpu with a := v } }

/-- BC, DE and HL: the first-named register is the high byte (R21). -/
def State.bc (s : State) : Word := Word.ofBytes s.cpu.b s.cpu.c
@[inherit_doc State.bc] def State.de (s : State) : Word := Word.ofBytes s.cpu.d s.cpu.e
@[inherit_doc State.bc] def State.hl (s : State) : Word := Word.ofBytes s.cpu.h s.cpu.l

/-- AF: F is read with its low nibble 0 (R21, R24). -/
def State.af (s : State) : Word := Word.ofBytes s.cpu.a s.getF

/-- Writing a pair writes both halves at once (R22). -/
def State.setBc (s : State) (v : Word) : State := { s with cpu := { s.cpu with b := v.hi, c := v.lo } }
@[inherit_doc State.setBc]
def State.setDe (s : State) (v : Word) : State := { s with cpu := { s.cpu with d := v.hi, e := v.lo } }
@[inherit_doc State.setBc]
def State.setHl (s : State) (v : Word) : State := { s with cpu := { s.cpu with h := v.hi, l := v.lo } }

/-- AF is written with F's low nibble re-masked (R24, R238). -/
def State.setAf (s : State) (v : Word) : State := { s with cpu := { s.cpu with a := v.hi, f := v.lo &&& 0xF0 } }

/-- `SP <- v` (R27). -/
def State.setSp (s : State) (v : Word) : State := { s with cpu := { s.cpu with sp := v } }

/-- `PC <- v` (R26). -/
def State.setPc (s : State) (v : Word) : State := { s with cpu := { s.cpu with pc := v } }

/-! ### The stack (R236, R237) -/

/-- `Push16(v)`: high byte at SP−1, then low byte at SP−2 (R236). SP wraps (R27). -/
def push16 (v : Word) (s : State) : State :=
  let s1 := s.setSp (s.cpu.sp - 1)
  let s2 := memWrite s1.cpu.sp v.hi s1
  let s3 := s2.setSp (s2.cpu.sp - 1)
  memWrite s3.cpu.sp v.lo s3

/-- The value `Pop16()` returns: low byte at SP, high byte at SP+1 (R237). -/
def popped (s : State) : Word := Word.ofBytes (memRead (s.cpu.sp + 1) s) (memRead s.cpu.sp s)

/-- The state `Pop16()` leaves: SP + 2 (R237). -/
def afterPop (s : State) : State := s.setSp (s.cpu.sp + 2)

/-! ### The interrupt controller (R410 to R420) -/

/-- The sources of R31 in bit order. -/
inductive IrqSource where
  | vblank
  | lcdStat
  | timer
  | serial
  | joypad
  deriving DecidableEq, Repr

/-- The bit of a source in IF and IE (R31). -/
def IrqSource.bit : IrqSource → Nat
  | .vblank => 0
  | .lcdStat => 1
  | .timer => 2
  | .serial => 3
  | .joypad => 4

/-- The vector of interrupt kind k: `0x0040 + 8 * k` (R412). -/
def IrqSource.vector (k : IrqSource) : Word := 0x0040 + 8 * BitVec.ofNat 16 k.bit

/-- The mask `1 << k` (R411). -/
def IrqSource.mask (k : IrqSource) : BitVec 5 := 1#5 <<< k.bit

/-- `signal(k)`: `IF[k] <- 1` (R410). -/
def signal (k : IrqSource) (s : State) : State :=
  { s with irq := { s.irq with iflag := s.irq.iflag ||| k.mask } }

/-- `mark_used(k)`: `IF[k] <- 0` (R410). -/
def markUsed (k : IrqSource) (s : State) : State :=
  { s with irq := { s.irq with iflag := s.irq.iflag &&& ~~~k.mask } }

/-- `IE[4:0] & IF[4:0]` (R411, R415). -/
def State.pending (s : State) : BitVec 5 := s.irq.ie.extractLsb' 0 5 &&& s.irq.iflag

/-- The least source with its bit set (R411): the scan tests `1 << k` (C9 of 90_conflicts.md). -/
def leastSource (p : BitVec 5) : Option IrqSource :=
  if p.getLsbD 0 then some .vblank
  else if p.getLsbD 1 then some .lcdStat
  else if p.getLsbD 2 then some .timer
  else if p.getLsbD 3 then some .serial
  else if p.getLsbD 4 then some .joypad
  else none

/-- `get_ready_interrupt()` (R411). -/
def readyInterrupt (s : State) : Option IrqSource := if s.irq.ime then leastSource s.pending else none

/-- `disable()`: IME and `ime_sched` are cleared at once (R418). -/
def disableInterrupts (s : State) : State := { s with irq := { s.irq with ime := false, imeSched := false } }

/-- `order_enable_all()`: EI schedules the enable (R417). -/
def orderEnableAll (s : State) : State := { s with irq := { s.irq with imeSched := true } }

/-- RETI's enable: IME is set at once and `ime_sched` cleared (R420). -/
def enableInterrupts (s : State) : State := { s with irq := { s.irq with ime := true, imeSched := false } }

/-- `dispatch(k)`, interrupt entry (R413): the cycles, the push of PC, the vector, IME off, the IF bit
cleared after the push, and HALT ended. -/
def dispatch (k : IrqSource) (s : State) : State :=
  let s1 := { s with cycles := s.cycles + Config.intDispatchCycles }
  let s2 := push16 s1.cpu.pc s1
  let s3 := s2.setPc k.vector
  let s4 := disableInterrupts s3
  let s5 := markUsed k s4
  { s5 with cpu := { s5.cpu with halted := false } }

/-- `PC <- Pop16()` (R338): the return from a call. -/
def returnFromStack (s : State) : State := (afterPop s).setPc (popped s)

/-- The return from an interrupt handler (R341, R420). -/
def returnFromInterrupt (s : State) : State := enableInterrupts (returnFromStack s)

/-- HALT wake (R415): whatever IME is. -/
def wakeHalt (s : State) : State :=
  if s.cpu.halted = true ∧ s.pending ≠ 0 then { s with cpu := { s.cpu with halted := false } } else s

/-- STOP wake (R416): on `IF[4]`, whatever IE and IME are. -/
def wakeStop (s : State) : State :=
  if s.cpu.stopped = true ∧ s.irq.iflag.getLsbD 4 = true then
    { s with cpu := { s.cpu with stopped := false }, timer := { s.timer with divFrozen := false } }
  else s

/-- `wake_checks()` (R401): rules R415 and R416, at the start of every step. -/
def wakeChecks (s : State) : State := wakeStop (wakeHalt s)

/-- Part 2 of `CPU.step()` (R401): the interrupt query and dispatch, not while stopped. -/
def serviceInterrupts (s : State) : State :=
  if s.cpu.stopped then s
  else
    match readyInterrupt s with
    | none => s
    | some k => dispatch k s

/-- `update_state(before)` (R419). -/
def updateState (before : Bool) (s : State) : State :=
  if before = true ∧ s.irq.imeSched = true then
    { s with irq := { s.irq with ime := true, imeSched := false } }
  else s

/-! ### The fault (R470) -/

/-- `raise Fault(kind, info)`: the fault field is set, the step ends, and no cycle count is returned. -/
def raiseFault (r : FaultRecord) (s : State) : Result :=
  .fault (.illegalOpcode r { s with fault := some r, cycles := 0 })

end Sys2Proof.Machine
end

