-- ==== Sys2Proof/Machine/Operands.lean ====
section
/-! DEFINITION. The operand forms of the encoding (R113, R115 to R118 of 30_encoding.md, R285 of 42_alu8.md,
R304 of 44_rotate_shift_bit.md): registers, the byte at HL, the register pairs, the indirect addresses and the
IO page. -/

namespace Sys2Proof.Machine

/-- An 8-bit operand location: a register, or the byte at HL read once through the Bus (R115, R304). -/
def State.readLoc (s : State) : Loc → Byte
  | .reg r => s.reg r
  | .atHL => memRead s.hl s

/-- Write back to an operand location (R304). -/
def State.writeLoc (s : State) (l : Loc) (v : Byte) : State :=
  match l with
  | .reg r => s.setReg r v
  | .atHL => memWrite s.hl v s

/-- The source operand `s` of the ALU rules (R285). -/
def State.readSrc (s : State) : Src8 → Byte
  | .loc l => s.readLoc l
  | .imm n => n

/-- `x[rr]` for rr of BC, DE, HL, SP (R116). -/
def State.pair (s : State) : Pair → Word
  | .bc => s.bc
  | .de => s.de
  | .hl => s.hl
  | .sp => s.cpu.sp

/-- `x[rr] <- v` for rr of BC, DE, HL, SP (R116). -/
def State.setPair (s : State) (p : Pair) (v : Word) : State :=
  match p with
  | .bc => s.setBc v
  | .de => s.setDe v
  | .hl => s.setHl v
  | .sp => s.setSp v

/-- `x[rr]` for rr of BC, DE, HL, AF (R116). -/
def State.stackPair (s : State) : StackPair → Word
  | .bc => s.bc
  | .de => s.de
  | .hl => s.hl
  | .af => s.af

/-- `x[rr] <- v` for rr of BC, DE, HL, AF (R116, R238). -/
def State.setStackPair (s : State) (p : StackPair) (v : Word) : State :=
  match p with
  | .bc => s.setBc v
  | .de => s.setDe v
  | .hl => s.setHl v
  | .af => s.setAf v

/-- The address of an indirect operand (R117). -/
def State.indAddr (s : State) : Indirect → Word
  | .bc => s.bc
  | .de => s.de
  | .hlInc => s.hl
  | .hlDec => s.hl

/-- What an indirect operand does to HL after the access (R117); HL wraps. -/
def State.indStep (s : State) : Indirect → State
  | .bc => s
  | .de => s
  | .hlInc => s.setHl (s.hl + 1)
  | .hlDec => s.setHl (s.hl - 1)

/-- `0xFF00 + zext_16(n)`: the IO page (R113). -/
def ioPage (n : Byte) : Word := 0xFF00 + n.zeroExtend 16

/-- `PC_next + sext_16(e8)` (R334). -/
def relTarget (pc : Word) (e8 : Byte) : Word := pc + e8.signExtend 16

/-- `zext_16(y * 8)`: the target of RST (R120). -/
def rstTarget (t : Fin 8) : Word := BitVec.ofNat 16 (t.val * 8)

end Sys2Proof.Machine
end

