-- ==== Sys2Proof/Machine/Alu16.lean ====
section
/-! DEFINITION. 16-bit arithmetic (43_alu16.md, R290 to R295). -/

namespace Sys2Proof.Machine

/-- R291. -/
def addHlPair (p : Pair) (s : State) : Result :=
  let (res, f) := addHl s.hl (s.pair p) s.flags
  retire 8 ((s.setHl res).setFlags f)

/-- R292: no flag changes. -/
def incPair (p : Pair) (s : State) : Result := retire 8 (s.setPair p (s.pair p + 1))

/-- R293: no flag changes. -/
def decPair (p : Pair) (s : State) : Result := retire 8 (s.setPair p (s.pair p - 1))

/-- R294. -/
def addSpImm (e : Byte) (s : State) : Result :=
  let (res, f) := addSpE s.cpu.sp e
  retire 16 ((s.setSp res).setFlags f)

/-- R295. -/
def loadHlSpE (e : Byte) (s : State) : Result :=
  let (res, f) := addSpE s.cpu.sp e
  retire 12 ((s.setHl res).setFlags f)

/-! ### The meanings, one per row, in the order of their rules -/

/-- `ADD HL,BC` (R291): 0x09, 8 cycles. -/
def execAdd_HL_BC (s : State) : Result := addHlPair .bc s

/-- `ADD HL,DE` (R291): 0x19, 8 cycles. -/
def execAdd_HL_DE (s : State) : Result := addHlPair .de s

/-- `ADD HL,HL` (R291): 0x29, 8 cycles. -/
def execAdd_HL_HL (s : State) : Result := addHlPair .hl s

/-- `ADD HL,SP` (R291): 0x39, 8 cycles. -/
def execAdd_HL_SP (s : State) : Result := addHlPair .sp s

/-- `INC BC` (R292): 0x03, 8 cycles. -/
def execInc_BC (s : State) : Result := incPair .bc s

/-- `INC DE` (R292): 0x13, 8 cycles. -/
def execInc_DE (s : State) : Result := incPair .de s

/-- `INC HL` (R292): 0x23, 8 cycles. -/
def execInc_HL (s : State) : Result := incPair .hl s

/-- `INC SP` (R292): 0x33, 8 cycles. -/
def execInc_SP (s : State) : Result := incPair .sp s

/-- `DEC BC` (R293): 0x0B, 8 cycles. -/
def execDec_BC (s : State) : Result := decPair .bc s

/-- `DEC DE` (R293): 0x1B, 8 cycles. -/
def execDec_DE (s : State) : Result := decPair .de s

/-- `DEC HL` (R293): 0x2B, 8 cycles. -/
def execDec_HL (s : State) : Result := decPair .hl s

/-- `DEC SP` (R293): 0x3B, 8 cycles. -/
def execDec_SP (s : State) : Result := decPair .sp s

/-- `ADD SP,e` (R294): 0xE8, 16 cycles. -/
def execAdd_SP_e (e : Byte) (s : State) : Result := addSpImm e s

/-- `LD HL,SP+e` (R295): 0xF8, 12 cycles. -/
def execLd_HL_SPe (e : Byte) (s : State) : Result := loadHlSpE e s

end Sys2Proof.Machine
end

