-- ==== Sys2Proof/Machine/Alu8.lean ====
section
/-! DEFINITION. 8-bit arithmetic and logic (42_alu8.md, R250 to R285). -/

namespace Sys2Proof.Machine

/-- Cycles of an ALU operation: 4 for a register, 8 for (HL) and for an immediate (R253 to R276). -/
def aluCycles : Src8 → Nat
  | .loc (.reg _) => 4
  | .loc .atHL => 8
  | .imm _ => 8

/-- The ALU operations (R253 to R276, R285): A ← res except for CP, and all four flags. -/
def aluOp (op : AluOp) (src : Src8) (s : State) : Result :=
  let (res, f) := aluResult op s.cpu.a (s.readSrc src) s.flags.c
  let s1 := s.setFlags f
  retire (aluCycles src) (if op = .cp then s1 else s1.setReg .a res)

/-- Cycles of INC and DEC: 4 for a register, 12 for (HL) (R277 to R280). -/
def incDecCycles : Loc → Nat
  | .reg _ => 4
  | .atHL => 12

/-- R277, R278. -/
def incLoc (l : Loc) (s : State) : Result :=
  let (res, f) := inc8 (s.readLoc l) s.flags
  retire (incDecCycles l) ((s.writeLoc l res).setFlags f)

/-- R279, R280. -/
def decLoc (l : Loc) (s : State) : Result :=
  let (res, f) := dec8 (s.readLoc l) s.flags
  retire (incDecCycles l) ((s.writeLoc l res).setFlags f)

/-- R281. -/
def daaOp (s : State) : Result :=
  let (res, f) := daa s.cpu.a s.flags
  retire 4 ((s.setReg .a res).setFlags f)

/-- R282. -/
def cplOp (s : State) : Result :=
  retire 4 ((s.setReg .a (s.cpu.a ^^^ 0xFF)).setFlags { s.flags with n := true, h := true })

/-- R283. -/
def scfOp (s : State) : Result := retire 4 (s.setFlags { s.flags with n := false, h := false, c := true })

/-- R284. -/
def ccfOp (s : State) : Result := retire 4 (s.setFlags { s.flags with n := false, h := false, c := !s.flags.c })

/-! ### The meanings, one per row, in the order of their rules -/

/-- `ADD A,B` (R253): 0x80, 4 cycles. -/
def execAdd_A_B (s : State) : Result := aluOp .add (.loc (.reg .b)) s

/-- `ADD A,C` (R253): 0x81, 4 cycles. -/
def execAdd_A_C (s : State) : Result := aluOp .add (.loc (.reg .c)) s

/-- `ADD A,D` (R253): 0x82, 4 cycles. -/
def execAdd_A_D (s : State) : Result := aluOp .add (.loc (.reg .d)) s

/-- `ADD A,E` (R253): 0x83, 4 cycles. -/
def execAdd_A_E (s : State) : Result := aluOp .add (.loc (.reg .e)) s

/-- `ADD A,H` (R253): 0x84, 4 cycles. -/
def execAdd_A_H (s : State) : Result := aluOp .add (.loc (.reg .h)) s

/-- `ADD A,L` (R253): 0x85, 4 cycles. -/
def execAdd_A_L (s : State) : Result := aluOp .add (.loc (.reg .l)) s

/-- `ADD A,A` (R253): 0x87, 4 cycles. -/
def execAdd_A_A (s : State) : Result := aluOp .add (.loc (.reg .a)) s

/-- `ADD A,(HL)` (R254): 0x86, 8 cycles. -/
def execAdd_A_atHL (s : State) : Result := aluOp .add (.loc .atHL) s

/-- `ADD A,n` (R255): 0xC6, 8 cycles. -/
def execAdd_A_n (n : Byte) (s : State) : Result := aluOp .add (.imm n) s

/-- `ADC A,B` (R256): 0x88, 4 cycles. -/
def execAdc_A_B (s : State) : Result := aluOp .adc (.loc (.reg .b)) s

/-- `ADC A,C` (R256): 0x89, 4 cycles. -/
def execAdc_A_C (s : State) : Result := aluOp .adc (.loc (.reg .c)) s

/-- `ADC A,D` (R256): 0x8A, 4 cycles. -/
def execAdc_A_D (s : State) : Result := aluOp .adc (.loc (.reg .d)) s

/-- `ADC A,E` (R256): 0x8B, 4 cycles. -/
def execAdc_A_E (s : State) : Result := aluOp .adc (.loc (.reg .e)) s

/-- `ADC A,H` (R256): 0x8C, 4 cycles. -/
def execAdc_A_H (s : State) : Result := aluOp .adc (.loc (.reg .h)) s

/-- `ADC A,L` (R256): 0x8D, 4 cycles. -/
def execAdc_A_L (s : State) : Result := aluOp .adc (.loc (.reg .l)) s

/-- `ADC A,A` (R256): 0x8F, 4 cycles. -/
def execAdc_A_A (s : State) : Result := aluOp .adc (.loc (.reg .a)) s

/-- `ADC A,(HL)` (R257): 0x8E, 8 cycles. -/
def execAdc_A_atHL (s : State) : Result := aluOp .adc (.loc .atHL) s

/-- `ADC A,n` (R258): 0xCE, 8 cycles. -/
def execAdc_A_n (n : Byte) (s : State) : Result := aluOp .adc (.imm n) s

/-- `SUB B` (R259): 0x90, 4 cycles. -/
def execSub_B (s : State) : Result := aluOp .sub (.loc (.reg .b)) s

/-- `SUB C` (R259): 0x91, 4 cycles. -/
def execSub_C (s : State) : Result := aluOp .sub (.loc (.reg .c)) s

/-- `SUB D` (R259): 0x92, 4 cycles. -/
def execSub_D (s : State) : Result := aluOp .sub (.loc (.reg .d)) s

/-- `SUB E` (R259): 0x93, 4 cycles. -/
def execSub_E (s : State) : Result := aluOp .sub (.loc (.reg .e)) s

/-- `SUB H` (R259): 0x94, 4 cycles. -/
def execSub_H (s : State) : Result := aluOp .sub (.loc (.reg .h)) s

/-- `SUB L` (R259): 0x95, 4 cycles. -/
def execSub_L (s : State) : Result := aluOp .sub (.loc (.reg .l)) s

/-- `SUB A` (R259): 0x97, 4 cycles. -/
def execSub_A (s : State) : Result := aluOp .sub (.loc (.reg .a)) s

/-- `SUB (HL)` (R260): 0x96, 8 cycles. -/
def execSub_atHL (s : State) : Result := aluOp .sub (.loc .atHL) s

/-- `SUB n` (R261): 0xD6, 8 cycles. -/
def execSub_n (n : Byte) (s : State) : Result := aluOp .sub (.imm n) s

/-- `SBC A,B` (R262): 0x98, 4 cycles. -/
def execSbc_A_B (s : State) : Result := aluOp .sbc (.loc (.reg .b)) s

/-- `SBC A,C` (R262): 0x99, 4 cycles. -/
def execSbc_A_C (s : State) : Result := aluOp .sbc (.loc (.reg .c)) s

/-- `SBC A,D` (R262): 0x9A, 4 cycles. -/
def execSbc_A_D (s : State) : Result := aluOp .sbc (.loc (.reg .d)) s

/-- `SBC A,E` (R262): 0x9B, 4 cycles. -/
def execSbc_A_E (s : State) : Result := aluOp .sbc (.loc (.reg .e)) s

/-- `SBC A,H` (R262): 0x9C, 4 cycles. -/
def execSbc_A_H (s : State) : Result := aluOp .sbc (.loc (.reg .h)) s

/-- `SBC A,L` (R262): 0x9D, 4 cycles. -/
def execSbc_A_L (s : State) : Result := aluOp .sbc (.loc (.reg .l)) s

/-- `SBC A,A` (R262): 0x9F, 4 cycles. -/
def execSbc_A_A (s : State) : Result := aluOp .sbc (.loc (.reg .a)) s

/-- `SBC A,(HL)` (R263): 0x9E, 8 cycles. -/
def execSbc_A_atHL (s : State) : Result := aluOp .sbc (.loc .atHL) s

/-- `SBC A,n` (R264): 0xDE, 8 cycles. -/
def execSbc_A_n (n : Byte) (s : State) : Result := aluOp .sbc (.imm n) s

/-- `AND B` (R265): 0xA0, 4 cycles. -/
def execAnd_B (s : State) : Result := aluOp .and (.loc (.reg .b)) s

/-- `AND C` (R265): 0xA1, 4 cycles. -/
def execAnd_C (s : State) : Result := aluOp .and (.loc (.reg .c)) s

/-- `AND D` (R265): 0xA2, 4 cycles. -/
def execAnd_D (s : State) : Result := aluOp .and (.loc (.reg .d)) s

/-- `AND E` (R265): 0xA3, 4 cycles. -/
def execAnd_E (s : State) : Result := aluOp .and (.loc (.reg .e)) s

/-- `AND H` (R265): 0xA4, 4 cycles. -/
def execAnd_H (s : State) : Result := aluOp .and (.loc (.reg .h)) s

/-- `AND L` (R265): 0xA5, 4 cycles. -/
def execAnd_L (s : State) : Result := aluOp .and (.loc (.reg .l)) s

/-- `AND A` (R265): 0xA7, 4 cycles. -/
def execAnd_A (s : State) : Result := aluOp .and (.loc (.reg .a)) s

/-- `AND (HL)` (R266): 0xA6, 8 cycles. -/
def execAnd_atHL (s : State) : Result := aluOp .and (.loc .atHL) s

/-- `AND n` (R267): 0xE6, 8 cycles. -/
def execAnd_n (n : Byte) (s : State) : Result := aluOp .and (.imm n) s

/-- `XOR B` (R268): 0xA8, 4 cycles. -/
def execXor_B (s : State) : Result := aluOp .xor (.loc (.reg .b)) s

/-- `XOR C` (R268): 0xA9, 4 cycles. -/
def execXor_C (s : State) : Result := aluOp .xor (.loc (.reg .c)) s

/-- `XOR D` (R268): 0xAA, 4 cycles. -/
def execXor_D (s : State) : Result := aluOp .xor (.loc (.reg .d)) s

/-- `XOR E` (R268): 0xAB, 4 cycles. -/
def execXor_E (s : State) : Result := aluOp .xor (.loc (.reg .e)) s

/-- `XOR H` (R268): 0xAC, 4 cycles. -/
def execXor_H (s : State) : Result := aluOp .xor (.loc (.reg .h)) s

/-- `XOR L` (R268): 0xAD, 4 cycles. -/
def execXor_L (s : State) : Result := aluOp .xor (.loc (.reg .l)) s

/-- `XOR A` (R268): 0xAF, 4 cycles. -/
def execXor_A (s : State) : Result := aluOp .xor (.loc (.reg .a)) s

/-- `XOR (HL)` (R269): 0xAE, 8 cycles. -/
def execXor_atHL (s : State) : Result := aluOp .xor (.loc .atHL) s

/-- `XOR n` (R270): 0xEE, 8 cycles. -/
def execXor_n (n : Byte) (s : State) : Result := aluOp .xor (.imm n) s

/-- `OR B` (R271): 0xB0, 4 cycles. -/
def execOr_B (s : State) : Result := aluOp .or (.loc (.reg .b)) s

/-- `OR C` (R271): 0xB1, 4 cycles. -/
def execOr_C (s : State) : Result := aluOp .or (.loc (.reg .c)) s

/-- `OR D` (R271): 0xB2, 4 cycles. -/
def execOr_D (s : State) : Result := aluOp .or (.loc (.reg .d)) s

/-- `OR E` (R271): 0xB3, 4 cycles. -/
def execOr_E (s : State) : Result := aluOp .or (.loc (.reg .e)) s

/-- `OR H` (R271): 0xB4, 4 cycles. -/
def execOr_H (s : State) : Result := aluOp .or (.loc (.reg .h)) s

/-- `OR L` (R271): 0xB5, 4 cycles. -/
def execOr_L (s : State) : Result := aluOp .or (.loc (.reg .l)) s

/-- `OR A` (R271): 0xB7, 4 cycles. -/
def execOr_A (s : State) : Result := aluOp .or (.loc (.reg .a)) s

/-- `OR (HL)` (R272): 0xB6, 8 cycles. -/
def execOr_atHL (s : State) : Result := aluOp .or (.loc .atHL) s

/-- `OR n` (R273): 0xF6, 8 cycles. -/
def execOr_n (n : Byte) (s : State) : Result := aluOp .or (.imm n) s

/-- `CP B` (R274): 0xB8, 4 cycles. -/
def execCp_B (s : State) : Result := aluOp .cp (.loc (.reg .b)) s

/-- `CP C` (R274): 0xB9, 4 cycles. -/
def execCp_C (s : State) : Result := aluOp .cp (.loc (.reg .c)) s

/-- `CP D` (R274): 0xBA, 4 cycles. -/
def execCp_D (s : State) : Result := aluOp .cp (.loc (.reg .d)) s

/-- `CP E` (R274): 0xBB, 4 cycles. -/
def execCp_E (s : State) : Result := aluOp .cp (.loc (.reg .e)) s

/-- `CP H` (R274): 0xBC, 4 cycles. -/
def execCp_H (s : State) : Result := aluOp .cp (.loc (.reg .h)) s

/-- `CP L` (R274): 0xBD, 4 cycles. -/
def execCp_L (s : State) : Result := aluOp .cp (.loc (.reg .l)) s

/-- `CP A` (R274): 0xBF, 4 cycles. -/
def execCp_A (s : State) : Result := aluOp .cp (.loc (.reg .a)) s

/-- `CP (HL)` (R275): 0xBE, 8 cycles. -/
def execCp_atHL (s : State) : Result := aluOp .cp (.loc .atHL) s

/-- `CP n` (R276): 0xFE, 8 cycles. -/
def execCp_n (n : Byte) (s : State) : Result := aluOp .cp (.imm n) s

/-- `INC B` (R277): 0x04, 4 cycles. -/
def execInc_B (s : State) : Result := incLoc (.reg .b) s

/-- `INC C` (R277): 0x0C, 4 cycles. -/
def execInc_C (s : State) : Result := incLoc (.reg .c) s

/-- `INC D` (R277): 0x14, 4 cycles. -/
def execInc_D (s : State) : Result := incLoc (.reg .d) s

/-- `INC E` (R277): 0x1C, 4 cycles. -/
def execInc_E (s : State) : Result := incLoc (.reg .e) s

/-- `INC H` (R277): 0x24, 4 cycles. -/
def execInc_H (s : State) : Result := incLoc (.reg .h) s

/-- `INC L` (R277): 0x2C, 4 cycles. -/
def execInc_L (s : State) : Result := incLoc (.reg .l) s

/-- `INC A` (R277): 0x3C, 4 cycles. -/
def execInc_A (s : State) : Result := incLoc (.reg .a) s

/-- `INC (HL)` (R278): 0x34, 12 cycles. -/
def execInc_atHL (s : State) : Result := incLoc .atHL s

/-- `DEC B` (R279): 0x05, 4 cycles. -/
def execDec_B (s : State) : Result := decLoc (.reg .b) s

/-- `DEC C` (R279): 0x0D, 4 cycles. -/
def execDec_C (s : State) : Result := decLoc (.reg .c) s

/-- `DEC D` (R279): 0x15, 4 cycles. -/
def execDec_D (s : State) : Result := decLoc (.reg .d) s

/-- `DEC E` (R279): 0x1D, 4 cycles. -/
def execDec_E (s : State) : Result := decLoc (.reg .e) s

/-- `DEC H` (R279): 0x25, 4 cycles. -/
def execDec_H (s : State) : Result := decLoc (.reg .h) s

/-- `DEC L` (R279): 0x2D, 4 cycles. -/
def execDec_L (s : State) : Result := decLoc (.reg .l) s

/-- `DEC A` (R279): 0x3D, 4 cycles. -/
def execDec_A (s : State) : Result := decLoc (.reg .a) s

/-- `DEC (HL)` (R280): 0x35, 12 cycles. -/
def execDec_atHL (s : State) : Result := decLoc .atHL s

/-- `DAA` (R281): 0x27, 4 cycles. -/
def execDaa (s : State) : Result := daaOp s

/-- `CPL` (R282): 0x2F, 4 cycles. -/
def execCpl (s : State) : Result := cplOp s

/-- `SCF` (R283): 0x37, 4 cycles. -/
def execScf (s : State) : Result := scfOp s

/-- `CCF` (R284): 0x3F, 4 cycles. -/
def execCcf (s : State) : Result := ccfOp s

end Sys2Proof.Machine
end

