-- ==== Sys2Proof/Machine/Control.lean ====
section
/-! DEFINITION. Control transfer (45_control.md, R330 to R342). PC in the state is PC_next (R26). -/

namespace Sys2Proof.Machine

/-- R331. -/
def jumpAbs (nn : Word) (s : State) : Result := retire 16 (s.setPc nn)

/-- R332. -/
def jumpCond (cc : Cond) (nn : Word) (s : State) : Result :=
  if condHolds cc s.flags then retire 16 (s.setPc nn) else retire 12 s

/-- R333. -/
def jumpHl (s : State) : Result := retire 4 (s.setPc s.hl)

/-- R334. -/
def jumpRel (e : Byte) (s : State) : Result := retire 12 (s.setPc (relTarget s.cpu.pc e))

/-- R335. -/
def jumpRelCond (cc : Cond) (e : Byte) (s : State) : Result :=
  if condHolds cc s.flags then retire 12 (s.setPc (relTarget s.cpu.pc e)) else retire 8 s

/-- `Push16(PC_next); PC <- target` (R336, R340). -/
def callTo (target : Word) (s : State) : State := (push16 s.cpu.pc s).setPc target

/-- R336. -/
def callAbs (nn : Word) (s : State) : Result := retire 24 (callTo nn s)

/-- R337: not taken, SP and memory are unchanged. -/
def callCond (cc : Cond) (nn : Word) (s : State) : Result :=
  if condHolds cc s.flags then retire 24 (callTo nn s) else retire 12 s

/-- R338. -/
def retOp (s : State) : Result := retire 16 (returnFromStack s)

/-- R339. -/
def retCond (cc : Cond) (s : State) : Result :=
  if condHolds cc s.flags then retire 20 (returnFromStack s) else retire 8 s

/-- R340. -/
def rstOp (t : Fin 8) (s : State) : Result := retire 16 (callTo (rstTarget t) s)

/-- R341. -/
def retiOp (s : State) : Result := retire 16 (returnFromInterrupt s)

/-! ### The meanings, one per row, in the order of their rules -/

/-- `JP nn` (R331): 0xC3, 16 cycles. -/
def execJp_nn (nn : Word) (s : State) : Result := jumpAbs nn s

/-- `JP NZ,nn` (R332): 0xC2, 16 cycles taken, 12 not taken. -/
def execJp_NZ_nn (nn : Word) (s : State) : Result := jumpCond .nz nn s

/-- `JP Z,nn` (R332): 0xCA, 16 cycles taken, 12 not taken. -/
def execJp_Z_nn (nn : Word) (s : State) : Result := jumpCond .z nn s

/-- `JP NC,nn` (R332): 0xD2, 16 cycles taken, 12 not taken. -/
def execJp_NC_nn (nn : Word) (s : State) : Result := jumpCond .nc nn s

/-- `JP C,nn` (R332): 0xDA, 16 cycles taken, 12 not taken. -/
def execJp_C_nn (nn : Word) (s : State) : Result := jumpCond .c nn s

/-- `JP HL` (R333): 0xE9, 4 cycles. -/
def execJp_HL (s : State) : Result := jumpHl s

/-- `JR e` (R334): 0x18, 12 cycles. -/
def execJr_e (e : Byte) (s : State) : Result := jumpRel e s

/-- `JR NZ,e` (R335): 0x20, 12 cycles taken, 8 not taken. -/
def execJr_NZ_e (e : Byte) (s : State) : Result := jumpRelCond .nz e s

/-- `JR Z,e` (R335): 0x28, 12 cycles taken, 8 not taken. -/
def execJr_Z_e (e : Byte) (s : State) : Result := jumpRelCond .z e s

/-- `JR NC,e` (R335): 0x30, 12 cycles taken, 8 not taken. -/
def execJr_NC_e (e : Byte) (s : State) : Result := jumpRelCond .nc e s

/-- `JR C,e` (R335): 0x38, 12 cycles taken, 8 not taken. -/
def execJr_C_e (e : Byte) (s : State) : Result := jumpRelCond .c e s

/-- `CALL nn` (R336): 0xCD, 24 cycles. -/
def execCall_nn (nn : Word) (s : State) : Result := callAbs nn s

/-- `CALL NZ,nn` (R337): 0xC4, 24 cycles taken, 12 not taken. -/
def execCall_NZ_nn (nn : Word) (s : State) : Result := callCond .nz nn s

/-- `CALL Z,nn` (R337): 0xCC, 24 cycles taken, 12 not taken. -/
def execCall_Z_nn (nn : Word) (s : State) : Result := callCond .z nn s

/-- `CALL NC,nn` (R337): 0xD4, 24 cycles taken, 12 not taken. -/
def execCall_NC_nn (nn : Word) (s : State) : Result := callCond .nc nn s

/-- `CALL C,nn` (R337): 0xDC, 24 cycles taken, 12 not taken. -/
def execCall_C_nn (nn : Word) (s : State) : Result := callCond .c nn s

/-- `RET` (R338): 0xC9, 16 cycles. -/
def execRet (s : State) : Result := retOp s

/-- `RET NZ` (R339): 0xC0, 20 cycles taken, 8 not taken. -/
def execRet_NZ (s : State) : Result := retCond .nz s

/-- `RET Z` (R339): 0xC8, 20 cycles taken, 8 not taken. -/
def execRet_Z (s : State) : Result := retCond .z s

/-- `RET NC` (R339): 0xD0, 20 cycles taken, 8 not taken. -/
def execRet_NC (s : State) : Result := retCond .nc s

/-- `RET C` (R339): 0xD8, 20 cycles taken, 8 not taken. -/
def execRet_C (s : State) : Result := retCond .c s

/-- `RST 0x00` (R340): 0xC7, 16 cycles. -/
def execRst_00 (s : State) : Result := rstOp 0 s

/-- `RST 0x08` (R340): 0xCF, 16 cycles. -/
def execRst_08 (s : State) : Result := rstOp 1 s

/-- `RST 0x10` (R340): 0xD7, 16 cycles. -/
def execRst_10 (s : State) : Result := rstOp 2 s

/-- `RST 0x18` (R340): 0xDF, 16 cycles. -/
def execRst_18 (s : State) : Result := rstOp 3 s

/-- `RST 0x20` (R340): 0xE7, 16 cycles. -/
def execRst_20 (s : State) : Result := rstOp 4 s

/-- `RST 0x28` (R340): 0xEF, 16 cycles. -/
def execRst_28 (s : State) : Result := rstOp 5 s

/-- `RST 0x30` (R340): 0xF7, 16 cycles. -/
def execRst_30 (s : State) : Result := rstOp 6 s

/-- `RST 0x38` (R340): 0xFF, 16 cycles. -/
def execRst_38 (s : State) : Result := rstOp 7 s

/-- `RETI` (R341): 0xD9, 16 cycles. -/
def execReti (s : State) : Result := retiOp s

end Sys2Proof.Machine
end

