-- ==== Sys2Proof/Machine/Load16.lean ====
section
/-! DEFINITION. 16-bit loads and the stack (41_load16.md, R230 to R238). -/

namespace Sys2Proof.Machine

/-- R230. -/
def loadPairImm (p : Pair) (nn : Word) (s : State) : Result := retire 12 (s.setPair p nn)

/-- R231: the low byte at nn first, then the high byte at nn+1. -/
def storeAbsSp (nn : Word) (s : State) : Result :=
  retire 20 (memWrite (nn + 1) s.cpu.sp.hi (memWrite nn s.cpu.sp.lo s))

/-- R232. -/
def loadSpHl (s : State) : Result := retire 8 (s.setSp s.hl)

/-- R233. -/
def pushPair (p : StackPair) (s : State) : Result := retire 16 (push16 (s.stackPair p) s)

/-- R234, R238. -/
def popPair (p : StackPair) (s : State) : Result := retire 12 ((afterPop s).setStackPair p (popped s))

/-! ### The meanings, one per row, in the order of their rules -/

/-- `LD BC,nn` (R230): 0x01, 12 cycles. -/
def execLd_BC_nn (nn : Word) (s : State) : Result := loadPairImm .bc nn s

/-- `LD DE,nn` (R230): 0x11, 12 cycles. -/
def execLd_DE_nn (nn : Word) (s : State) : Result := loadPairImm .de nn s

/-- `LD HL,nn` (R230): 0x21, 12 cycles. -/
def execLd_HL_nn (nn : Word) (s : State) : Result := loadPairImm .hl nn s

/-- `LD SP,nn` (R230): 0x31, 12 cycles. -/
def execLd_SP_nn (nn : Word) (s : State) : Result := loadPairImm .sp nn s

/-- `LD (nn),SP` (R231): 0x08, 20 cycles. -/
def execLd_at_nn_SP (nn : Word) (s : State) : Result := storeAbsSp nn s

/-- `LD SP,HL` (R232): 0xF9, 8 cycles. -/
def execLd_SP_HL (s : State) : Result := loadSpHl s

/-- `PUSH BC` (R233): 0xC5, 16 cycles. -/
def execPush_BC (s : State) : Result := pushPair .bc s

/-- `PUSH DE` (R233): 0xD5, 16 cycles. -/
def execPush_DE (s : State) : Result := pushPair .de s

/-- `PUSH HL` (R233): 0xE5, 16 cycles. -/
def execPush_HL (s : State) : Result := pushPair .hl s

/-- `PUSH AF` (R233): 0xF5, 16 cycles. -/
def execPush_AF (s : State) : Result := pushPair .af s

/-- `POP BC` (R234): 0xC1, 12 cycles. -/
def execPop_BC (s : State) : Result := popPair .bc s

/-- `POP DE` (R234): 0xD1, 12 cycles. -/
def execPop_DE (s : State) : Result := popPair .de s

/-- `POP HL` (R234): 0xE1, 12 cycles. -/
def execPop_HL (s : State) : Result := popPair .hl s

/-- `POP AF` (R238): 0xF1, 12 cycles. -/
def execPop_AF (s : State) : Result := popPair .af s

end Sys2Proof.Machine
end

