-- ==== Sys2Proof/Machine/Load8.lean ====
section
/-! DEFINITION. 8-bit loads and stores (40_load8.md, R200 to R218). Each meaning runs after the fetch, so PC already
points past the instruction (R26). No flag is written. -/

namespace Sys2Proof.Machine

/-- R200. -/
def loadRegReg (dst src : Reg8) (s : State) : Result := retire 4 (s.setReg dst (s.reg src))

/-- R201. -/
def loadRegImm (dst : Reg8) (n : Byte) (s : State) : Result := retire 8 (s.setReg dst n)

/-- R202: the read uses the old HL. -/
def loadRegHl (dst : Reg8) (s : State) : Result := retire 8 (s.setReg dst (memRead s.hl s))

/-- R203. -/
def storeHlReg (r : Reg8) (s : State) : Result := retire 8 (memWrite s.hl (s.reg r) s)

/-- R204. -/
def storeHlImm (n : Byte) (s : State) : Result := retire 12 (memWrite s.hl n s)

/-- R205, R206, R215, R217: A from an indirect address, then HL's step. -/
def loadAInd (p : Indirect) (s : State) : Result :=
  retire 8 ((s.setReg .a (memRead (s.indAddr p) s)).indStep p)

/-- R207, R208, R216, R218: A to an indirect address, then HL's step. -/
def storeIndA (p : Indirect) (s : State) : Result :=
  retire 8 ((memWrite (s.indAddr p) s.cpu.a s).indStep p)

/-- R209. -/
def loadAAbs (nn : Word) (s : State) : Result := retire 16 (s.setReg .a (memRead nn s))

/-- R210. -/
def storeAbsA (nn : Word) (s : State) : Result := retire 16 (memWrite nn s.cpu.a s)

/-- R211. -/
def loadHighC (s : State) : Result := retire 8 (s.setReg .a (memRead (ioPage s.cpu.c) s))

/-- R212. -/
def storeHighC (s : State) : Result := retire 8 (memWrite (ioPage s.cpu.c) s.cpu.a s)

/-- R213. -/
def loadHighImm (n : Byte) (s : State) : Result := retire 12 (s.setReg .a (memRead (ioPage n) s))

/-- R214. -/
def storeHighImm (n : Byte) (s : State) : Result := retire 12 (memWrite (ioPage n) s.cpu.a s)

/-! ### The meanings, one per row, in the order of their rules -/

/-- `LD B,B` (R200): 0x40, 4 cycles. -/
def execLd_B_B (s : State) : Result := loadRegReg .b .b s

/-- `LD B,C` (R200): 0x41, 4 cycles. -/
def execLd_B_C (s : State) : Result := loadRegReg .b .c s

/-- `LD B,D` (R200): 0x42, 4 cycles. -/
def execLd_B_D (s : State) : Result := loadRegReg .b .d s

/-- `LD B,E` (R200): 0x43, 4 cycles. -/
def execLd_B_E (s : State) : Result := loadRegReg .b .e s

/-- `LD B,H` (R200): 0x44, 4 cycles. -/
def execLd_B_H (s : State) : Result := loadRegReg .b .h s

/-- `LD B,L` (R200): 0x45, 4 cycles. -/
def execLd_B_L (s : State) : Result := loadRegReg .b .l s

/-- `LD B,A` (R200): 0x47, 4 cycles. -/
def execLd_B_A (s : State) : Result := loadRegReg .b .a s

/-- `LD C,B` (R200): 0x48, 4 cycles. -/
def execLd_C_B (s : State) : Result := loadRegReg .c .b s

/-- `LD C,C` (R200): 0x49, 4 cycles. -/
def execLd_C_C (s : State) : Result := loadRegReg .c .c s

/-- `LD C,D` (R200): 0x4A, 4 cycles. -/
def execLd_C_D (s : State) : Result := loadRegReg .c .d s

/-- `LD C,E` (R200): 0x4B, 4 cycles. -/
def execLd_C_E (s : State) : Result := loadRegReg .c .e s

/-- `LD C,H` (R200): 0x4C, 4 cycles. -/
def execLd_C_H (s : State) : Result := loadRegReg .c .h s

/-- `LD C,L` (R200): 0x4D, 4 cycles. -/
def execLd_C_L (s : State) : Result := loadRegReg .c .l s

/-- `LD C,A` (R200): 0x4F, 4 cycles. -/
def execLd_C_A (s : State) : Result := loadRegReg .c .a s

/-- `LD D,B` (R200): 0x50, 4 cycles. -/
def execLd_D_B (s : State) : Result := loadRegReg .d .b s

/-- `LD D,C` (R200): 0x51, 4 cycles. -/
def execLd_D_C (s : State) : Result := loadRegReg .d .c s

/-- `LD D,D` (R200): 0x52, 4 cycles. -/
def execLd_D_D (s : State) : Result := loadRegReg .d .d s

/-- `LD D,E` (R200): 0x53, 4 cycles. -/
def execLd_D_E (s : State) : Result := loadRegReg .d .e s

/-- `LD D,H` (R200): 0x54, 4 cycles. -/
def execLd_D_H (s : State) : Result := loadRegReg .d .h s

/-- `LD D,L` (R200): 0x55, 4 cycles. -/
def execLd_D_L (s : State) : Result := loadRegReg .d .l s

/-- `LD D,A` (R200): 0x57, 4 cycles. -/
def execLd_D_A (s : State) : Result := loadRegReg .d .a s

/-- `LD E,B` (R200): 0x58, 4 cycles. -/
def execLd_E_B (s : State) : Result := loadRegReg .e .b s

/-- `LD E,C` (R200): 0x59, 4 cycles. -/
def execLd_E_C (s : State) : Result := loadRegReg .e .c s

/-- `LD E,D` (R200): 0x5A, 4 cycles. -/
def execLd_E_D (s : State) : Result := loadRegReg .e .d s

/-- `LD E,E` (R200): 0x5B, 4 cycles. -/
def execLd_E_E (s : State) : Result := loadRegReg .e .e s

/-- `LD E,H` (R200): 0x5C, 4 cycles. -/
def execLd_E_H (s : State) : Result := loadRegReg .e .h s

/-- `LD E,L` (R200): 0x5D, 4 cycles. -/
def execLd_E_L (s : State) : Result := loadRegReg .e .l s

/-- `LD E,A` (R200): 0x5F, 4 cycles. -/
def execLd_E_A (s : State) : Result := loadRegReg .e .a s

/-- `LD H,B` (R200): 0x60, 4 cycles. -/
def execLd_H_B (s : State) : Result := loadRegReg .h .b s

/-- `LD H,C` (R200): 0x61, 4 cycles. -/
def execLd_H_C (s : State) : Result := loadRegReg .h .c s

/-- `LD H,D` (R200): 0x62, 4 cycles. -/
def execLd_H_D (s : State) : Result := loadRegReg .h .d s

/-- `LD H,E` (R200): 0x63, 4 cycles. -/
def execLd_H_E (s : State) : Result := loadRegReg .h .e s

/-- `LD H,H` (R200): 0x64, 4 cycles. -/
def execLd_H_H (s : State) : Result := loadRegReg .h .h s

/-- `LD H,L` (R200): 0x65, 4 cycles. -/
def execLd_H_L (s : State) : Result := loadRegReg .h .l s

/-- `LD H,A` (R200): 0x67, 4 cycles. -/
def execLd_H_A (s : State) : Result := loadRegReg .h .a s

/-- `LD L,B` (R200): 0x68, 4 cycles. -/
def execLd_L_B (s : State) : Result := loadRegReg .l .b s

/-- `LD L,C` (R200): 0x69, 4 cycles. -/
def execLd_L_C (s : State) : Result := loadRegReg .l .c s

/-- `LD L,D` (R200): 0x6A, 4 cycles. -/
def execLd_L_D (s : State) : Result := loadRegReg .l .d s

/-- `LD L,E` (R200): 0x6B, 4 cycles. -/
def execLd_L_E (s : State) : Result := loadRegReg .l .e s

/-- `LD L,H` (R200): 0x6C, 4 cycles. -/
def execLd_L_H (s : State) : Result := loadRegReg .l .h s

/-- `LD L,L` (R200): 0x6D, 4 cycles. -/
def execLd_L_L (s : State) : Result := loadRegReg .l .l s

/-- `LD L,A` (R200): 0x6F, 4 cycles. -/
def execLd_L_A (s : State) : Result := loadRegReg .l .a s

/-- `LD A,B` (R200): 0x78, 4 cycles. -/
def execLd_A_B (s : State) : Result := loadRegReg .a .b s

/-- `LD A,C` (R200): 0x79, 4 cycles. -/
def execLd_A_C (s : State) : Result := loadRegReg .a .c s

/-- `LD A,D` (R200): 0x7A, 4 cycles. -/
def execLd_A_D (s : State) : Result := loadRegReg .a .d s

/-- `LD A,E` (R200): 0x7B, 4 cycles. -/
def execLd_A_E (s : State) : Result := loadRegReg .a .e s

/-- `LD A,H` (R200): 0x7C, 4 cycles. -/
def execLd_A_H (s : State) : Result := loadRegReg .a .h s

/-- `LD A,L` (R200): 0x7D, 4 cycles. -/
def execLd_A_L (s : State) : Result := loadRegReg .a .l s

/-- `LD A,A` (R200): 0x7F, 4 cycles. -/
def execLd_A_A (s : State) : Result := loadRegReg .a .a s

/-- `LD B,n` (R201): 0x06, 8 cycles. -/
def execLd_B_n (n : Byte) (s : State) : Result := loadRegImm .b n s

/-- `LD C,n` (R201): 0x0E, 8 cycles. -/
def execLd_C_n (n : Byte) (s : State) : Result := loadRegImm .c n s

/-- `LD D,n` (R201): 0x16, 8 cycles. -/
def execLd_D_n (n : Byte) (s : State) : Result := loadRegImm .d n s

/-- `LD E,n` (R201): 0x1E, 8 cycles. -/
def execLd_E_n (n : Byte) (s : State) : Result := loadRegImm .e n s

/-- `LD H,n` (R201): 0x26, 8 cycles. -/
def execLd_H_n (n : Byte) (s : State) : Result := loadRegImm .h n s

/-- `LD L,n` (R201): 0x2E, 8 cycles. -/
def execLd_L_n (n : Byte) (s : State) : Result := loadRegImm .l n s

/-- `LD A,n` (R201): 0x3E, 8 cycles. -/
def execLd_A_n (n : Byte) (s : State) : Result := loadRegImm .a n s

/-- `LD B,(HL)` (R202): 0x46, 8 cycles. -/
def execLd_B_atHL (s : State) : Result := loadRegHl .b s

/-- `LD C,(HL)` (R202): 0x4E, 8 cycles. -/
def execLd_C_atHL (s : State) : Result := loadRegHl .c s

/-- `LD D,(HL)` (R202): 0x56, 8 cycles. -/
def execLd_D_atHL (s : State) : Result := loadRegHl .d s

/-- `LD E,(HL)` (R202): 0x5E, 8 cycles. -/
def execLd_E_atHL (s : State) : Result := loadRegHl .e s

/-- `LD H,(HL)` (R202): 0x66, 8 cycles. -/
def execLd_H_atHL (s : State) : Result := loadRegHl .h s

/-- `LD L,(HL)` (R202): 0x6E, 8 cycles. -/
def execLd_L_atHL (s : State) : Result := loadRegHl .l s

/-- `LD A,(HL)` (R202): 0x7E, 8 cycles. -/
def execLd_A_atHL (s : State) : Result := loadRegHl .a s

/-- `LD (HL),B` (R203): 0x70, 8 cycles. -/
def execLd_atHL_B (s : State) : Result := storeHlReg .b s

/-- `LD (HL),C` (R203): 0x71, 8 cycles. -/
def execLd_atHL_C (s : State) : Result := storeHlReg .c s

/-- `LD (HL),D` (R203): 0x72, 8 cycles. -/
def execLd_atHL_D (s : State) : Result := storeHlReg .d s

/-- `LD (HL),E` (R203): 0x73, 8 cycles. -/
def execLd_atHL_E (s : State) : Result := storeHlReg .e s

/-- `LD (HL),H` (R203): 0x74, 8 cycles. -/
def execLd_atHL_H (s : State) : Result := storeHlReg .h s

/-- `LD (HL),L` (R203): 0x75, 8 cycles. -/
def execLd_atHL_L (s : State) : Result := storeHlReg .l s

/-- `LD (HL),A` (R203): 0x77, 8 cycles. -/
def execLd_atHL_A (s : State) : Result := storeHlReg .a s

/-- `LD (HL),n` (R204): 0x36, 12 cycles. -/
def execLd_atHL_n (n : Byte) (s : State) : Result := storeHlImm n s

/-- `LD A,(BC)` (R205): 0x0A, 8 cycles. -/
def execLd_A_atBC (s : State) : Result := loadAInd .bc s

/-- `LD A,(DE)` (R206): 0x1A, 8 cycles. -/
def execLd_A_atDE (s : State) : Result := loadAInd .de s

/-- `LD (BC),A` (R207): 0x02, 8 cycles. -/
def execLd_atBC_A (s : State) : Result := storeIndA .bc s

/-- `LD (DE),A` (R208): 0x12, 8 cycles. -/
def execLd_atDE_A (s : State) : Result := storeIndA .de s

/-- `LD A,(nn)` (R209): 0xFA, 16 cycles. -/
def execLd_A_at_nn (nn : Word) (s : State) : Result := loadAAbs nn s

/-- `LD (nn),A` (R210): 0xEA, 16 cycles. -/
def execLd_at_nn_A (nn : Word) (s : State) : Result := storeAbsA nn s

/-- `LDH A,(C)` (R211): 0xF2, 8 cycles. -/
def execLdh_A_atC (s : State) : Result := loadHighC s

/-- `LDH (C),A` (R212): 0xE2, 8 cycles. -/
def execLdh_atC_A (s : State) : Result := storeHighC s

/-- `LDH A,(n)` (R213): 0xF0, 12 cycles. -/
def execLdh_A_at_n (n : Byte) (s : State) : Result := loadHighImm n s

/-- `LDH (n),A` (R214): 0xE0, 12 cycles. -/
def execLdh_at_n_A (n : Byte) (s : State) : Result := storeHighImm n s

/-- `LD A,(HL-)` (R215): 0x3A, 8 cycles. -/
def execLd_A_atHLd (s : State) : Result := loadAInd .hlDec s

/-- `LD (HL-),A` (R216): 0x32, 8 cycles. -/
def execLd_atHLd_A (s : State) : Result := storeIndA .hlDec s

/-- `LD A,(HL+)` (R217): 0x2A, 8 cycles. -/
def execLd_A_atHLi (s : State) : Result := loadAInd .hlInc s

/-- `LD (HL+),A` (R218): 0x22, 8 cycles. -/
def execLd_atHLi_A (s : State) : Result := storeIndA .hlInc s

end Sys2Proof.Machine
end

