-- ==== Sys2Proof/Machine/RotateShiftBit.lean ====
section
/-! DEFINITION. Rotates, shifts, SWAP and bit operations (44_rotate_shift_bit.md, R300 to R326). -/

namespace Sys2Proof.Machine

/-- RLCA, RRCA, RLA, RRA (R300 to R303): the rotate of A with Z = N = H = 0. -/
def accRotate (op : ShiftOp) (s : State) : Result :=
  let (res, c) := shiftResult op s.cpu.a s.flags.c
  retire 4 ((s.setReg .a res).setFlags (accRotateFlags c))

/-- Cycles of a CB-page instruction but BIT: 8 for a register, 16 for (HL) (R304). -/
def cbCycles : Loc → Nat
  | .reg _ => 8
  | .atHL => 16

/-- Cycles of BIT (R321, R322). -/
def cbBitCycles : Loc → Nat
  | .reg _ => 8
  | .atHL => Config.cbBitHlCycles

/-- R305 to R320: one read, one write after it (R304), all four flags. -/
def shiftLoc (op : ShiftOp) (l : Loc) (s : State) : Result :=
  let (res, c) := shiftResult op (s.readLoc l) s.flags.c
  retire (cbCycles l) ((s.writeLoc l res).setFlags (shiftFlags res c))

/-- R321, R322: no write-back. -/
def bitLoc (b : Fin 8) (l : Loc) (s : State) : Result :=
  retire (cbBitCycles l) (s.setFlags (bitTestFlags (s.readLoc l) b s.flags))

/-- R323, R324: no flag changes, and the write happens even when the bit was 0. -/
def resLoc (b : Fin 8) (l : Loc) (s : State) : Result :=
  retire (cbCycles l) (s.writeLoc l (s.readLoc l &&& ~~~(1#8 <<< b.val)))

/-- R325, R326: no flag changes, and the write happens even when the bit was 1. -/
def setLoc (b : Fin 8) (l : Loc) (s : State) : Result :=
  retire (cbCycles l) (s.writeLoc l (s.readLoc l ||| (1#8 <<< b.val)))

/-! ### The meanings, one per row, in the order of their rules -/

/-- `RLCA` (R300): 0x07, 4 cycles. -/
def execRlca (s : State) : Result := accRotate .rlc s

/-- `RRCA` (R301): 0x0F, 4 cycles. -/
def execRrca (s : State) : Result := accRotate .rrc s

/-- `RLA` (R302): 0x17, 4 cycles. -/
def execRla (s : State) : Result := accRotate .rl s

/-- `RRA` (R303): 0x1F, 4 cycles. -/
def execRra (s : State) : Result := accRotate .rr s

/-- `RLC B` (R305): 0xCB 0x00, 8 cycles. -/
def execRlc_B (s : State) : Result := shiftLoc .rlc (.reg .b) s

/-- `RLC C` (R305): 0xCB 0x01, 8 cycles. -/
def execRlc_C (s : State) : Result := shiftLoc .rlc (.reg .c) s

/-- `RLC D` (R305): 0xCB 0x02, 8 cycles. -/
def execRlc_D (s : State) : Result := shiftLoc .rlc (.reg .d) s

/-- `RLC E` (R305): 0xCB 0x03, 8 cycles. -/
def execRlc_E (s : State) : Result := shiftLoc .rlc (.reg .e) s

/-- `RLC H` (R305): 0xCB 0x04, 8 cycles. -/
def execRlc_H (s : State) : Result := shiftLoc .rlc (.reg .h) s

/-- `RLC L` (R305): 0xCB 0x05, 8 cycles. -/
def execRlc_L (s : State) : Result := shiftLoc .rlc (.reg .l) s

/-- `RLC A` (R305): 0xCB 0x07, 8 cycles. -/
def execRlc_A (s : State) : Result := shiftLoc .rlc (.reg .a) s

/-- `RLC (HL)` (R306): 0xCB 0x06, 16 cycles. -/
def execRlc_atHL (s : State) : Result := shiftLoc .rlc .atHL s

/-- `RRC B` (R307): 0xCB 0x08, 8 cycles. -/
def execRrc_B (s : State) : Result := shiftLoc .rrc (.reg .b) s

/-- `RRC C` (R307): 0xCB 0x09, 8 cycles. -/
def execRrc_C (s : State) : Result := shiftLoc .rrc (.reg .c) s

/-- `RRC D` (R307): 0xCB 0x0A, 8 cycles. -/
def execRrc_D (s : State) : Result := shiftLoc .rrc (.reg .d) s

/-- `RRC E` (R307): 0xCB 0x0B, 8 cycles. -/
def execRrc_E (s : State) : Result := shiftLoc .rrc (.reg .e) s

/-- `RRC H` (R307): 0xCB 0x0C, 8 cycles. -/
def execRrc_H (s : State) : Result := shiftLoc .rrc (.reg .h) s

/-- `RRC L` (R307): 0xCB 0x0D, 8 cycles. -/
def execRrc_L (s : State) : Result := shiftLoc .rrc (.reg .l) s

/-- `RRC A` (R307): 0xCB 0x0F, 8 cycles. -/
def execRrc_A (s : State) : Result := shiftLoc .rrc (.reg .a) s

/-- `RRC (HL)` (R308): 0xCB 0x0E, 16 cycles. -/
def execRrc_atHL (s : State) : Result := shiftLoc .rrc .atHL s

/-- `RL B` (R309): 0xCB 0x10, 8 cycles. -/
def execRl_B (s : State) : Result := shiftLoc .rl (.reg .b) s

/-- `RL C` (R309): 0xCB 0x11, 8 cycles. -/
def execRl_C (s : State) : Result := shiftLoc .rl (.reg .c) s

/-- `RL D` (R309): 0xCB 0x12, 8 cycles. -/
def execRl_D (s : State) : Result := shiftLoc .rl (.reg .d) s

/-- `RL E` (R309): 0xCB 0x13, 8 cycles. -/
def execRl_E (s : State) : Result := shiftLoc .rl (.reg .e) s

/-- `RL H` (R309): 0xCB 0x14, 8 cycles. -/
def execRl_H (s : State) : Result := shiftLoc .rl (.reg .h) s

/-- `RL L` (R309): 0xCB 0x15, 8 cycles. -/
def execRl_L (s : State) : Result := shiftLoc .rl (.reg .l) s

/-- `RL A` (R309): 0xCB 0x17, 8 cycles. -/
def execRl_A (s : State) : Result := shiftLoc .rl (.reg .a) s

/-- `RL (HL)` (R310): 0xCB 0x16, 16 cycles. -/
def execRl_atHL (s : State) : Result := shiftLoc .rl .atHL s

/-- `RR B` (R311): 0xCB 0x18, 8 cycles. -/
def execRr_B (s : State) : Result := shiftLoc .rr (.reg .b) s

/-- `RR C` (R311): 0xCB 0x19, 8 cycles. -/
def execRr_C (s : State) : Result := shiftLoc .rr (.reg .c) s

/-- `RR D` (R311): 0xCB 0x1A, 8 cycles. -/
def execRr_D (s : State) : Result := shiftLoc .rr (.reg .d) s

/-- `RR E` (R311): 0xCB 0x1B, 8 cycles. -/
def execRr_E (s : State) : Result := shiftLoc .rr (.reg .e) s

/-- `RR H` (R311): 0xCB 0x1C, 8 cycles. -/
def execRr_H (s : State) : Result := shiftLoc .rr (.reg .h) s

/-- `RR L` (R311): 0xCB 0x1D, 8 cycles. -/
def execRr_L (s : State) : Result := shiftLoc .rr (.reg .l) s

/-- `RR A` (R311): 0xCB 0x1F, 8 cycles. -/
def execRr_A (s : State) : Result := shiftLoc .rr (.reg .a) s

/-- `RR (HL)` (R312): 0xCB 0x1E, 16 cycles. -/
def execRr_atHL (s : State) : Result := shiftLoc .rr .atHL s

/-- `SLA B` (R313): 0xCB 0x20, 8 cycles. -/
def execSla_B (s : State) : Result := shiftLoc .sla (.reg .b) s

/-- `SLA C` (R313): 0xCB 0x21, 8 cycles. -/
def execSla_C (s : State) : Result := shiftLoc .sla (.reg .c) s

/-- `SLA D` (R313): 0xCB 0x22, 8 cycles. -/
def execSla_D (s : State) : Result := shiftLoc .sla (.reg .d) s

/-- `SLA E` (R313): 0xCB 0x23, 8 cycles. -/
def execSla_E (s : State) : Result := shiftLoc .sla (.reg .e) s

/-- `SLA H` (R313): 0xCB 0x24, 8 cycles. -/
def execSla_H (s : State) : Result := shiftLoc .sla (.reg .h) s

/-- `SLA L` (R313): 0xCB 0x25, 8 cycles. -/
def execSla_L (s : State) : Result := shiftLoc .sla (.reg .l) s

/-- `SLA A` (R313): 0xCB 0x27, 8 cycles. -/
def execSla_A (s : State) : Result := shiftLoc .sla (.reg .a) s

/-- `SLA (HL)` (R314): 0xCB 0x26, 16 cycles. -/
def execSla_atHL (s : State) : Result := shiftLoc .sla .atHL s

/-- `SRA B` (R315): 0xCB 0x28, 8 cycles. -/
def execSra_B (s : State) : Result := shiftLoc .sra (.reg .b) s

/-- `SRA C` (R315): 0xCB 0x29, 8 cycles. -/
def execSra_C (s : State) : Result := shiftLoc .sra (.reg .c) s

/-- `SRA D` (R315): 0xCB 0x2A, 8 cycles. -/
def execSra_D (s : State) : Result := shiftLoc .sra (.reg .d) s

/-- `SRA E` (R315): 0xCB 0x2B, 8 cycles. -/
def execSra_E (s : State) : Result := shiftLoc .sra (.reg .e) s

/-- `SRA H` (R315): 0xCB 0x2C, 8 cycles. -/
def execSra_H (s : State) : Result := shiftLoc .sra (.reg .h) s

/-- `SRA L` (R315): 0xCB 0x2D, 8 cycles. -/
def execSra_L (s : State) : Result := shiftLoc .sra (.reg .l) s

/-- `SRA A` (R315): 0xCB 0x2F, 8 cycles. -/
def execSra_A (s : State) : Result := shiftLoc .sra (.reg .a) s

/-- `SRA (HL)` (R316): 0xCB 0x2E, 16 cycles. -/
def execSra_atHL (s : State) : Result := shiftLoc .sra .atHL s

/-- `SWAP B` (R317): 0xCB 0x30, 8 cycles. -/
def execSwap_B (s : State) : Result := shiftLoc .swap (.reg .b) s

/-- `SWAP C` (R317): 0xCB 0x31, 8 cycles. -/
def execSwap_C (s : State) : Result := shiftLoc .swap (.reg .c) s

/-- `SWAP D` (R317): 0xCB 0x32, 8 cycles. -/
def execSwap_D (s : State) : Result := shiftLoc .swap (.reg .d) s

/-- `SWAP E` (R317): 0xCB 0x33, 8 cycles. -/
def execSwap_E (s : State) : Result := shiftLoc .swap (.reg .e) s

/-- `SWAP H` (R317): 0xCB 0x34, 8 cycles. -/
def execSwap_H (s : State) : Result := shiftLoc .swap (.reg .h) s

/-- `SWAP L` (R317): 0xCB 0x35, 8 cycles. -/
def execSwap_L (s : State) : Result := shiftLoc .swap (.reg .l) s

/-- `SWAP A` (R317): 0xCB 0x37, 8 cycles. -/
def execSwap_A (s : State) : Result := shiftLoc .swap (.reg .a) s

/-- `SWAP (HL)` (R318): 0xCB 0x36, 16 cycles. -/
def execSwap_atHL (s : State) : Result := shiftLoc .swap .atHL s

/-- `SRL B` (R319): 0xCB 0x38, 8 cycles. -/
def execSrl_B (s : State) : Result := shiftLoc .srl (.reg .b) s

/-- `SRL C` (R319): 0xCB 0x39, 8 cycles. -/
def execSrl_C (s : State) : Result := shiftLoc .srl (.reg .c) s

/-- `SRL D` (R319): 0xCB 0x3A, 8 cycles. -/
def execSrl_D (s : State) : Result := shiftLoc .srl (.reg .d) s

/-- `SRL E` (R319): 0xCB 0x3B, 8 cycles. -/
def execSrl_E (s : State) : Result := shiftLoc .srl (.reg .e) s

/-- `SRL H` (R319): 0xCB 0x3C, 8 cycles. -/
def execSrl_H (s : State) : Result := shiftLoc .srl (.reg .h) s

/-- `SRL L` (R319): 0xCB 0x3D, 8 cycles. -/
def execSrl_L (s : State) : Result := shiftLoc .srl (.reg .l) s

/-- `SRL A` (R319): 0xCB 0x3F, 8 cycles. -/
def execSrl_A (s : State) : Result := shiftLoc .srl (.reg .a) s

/-- `SRL (HL)` (R320): 0xCB 0x3E, 16 cycles. -/
def execSrl_atHL (s : State) : Result := shiftLoc .srl .atHL s

/-- `BIT 0,B` (R321): 0xCB 0x40, 8 cycles. -/
def execBit_0_B (s : State) : Result := bitLoc 0 (.reg .b) s

/-- `BIT 0,C` (R321): 0xCB 0x41, 8 cycles. -/
def execBit_0_C (s : State) : Result := bitLoc 0 (.reg .c) s

/-- `BIT 0,D` (R321): 0xCB 0x42, 8 cycles. -/
def execBit_0_D (s : State) : Result := bitLoc 0 (.reg .d) s

/-- `BIT 0,E` (R321): 0xCB 0x43, 8 cycles. -/
def execBit_0_E (s : State) : Result := bitLoc 0 (.reg .e) s

/-- `BIT 0,H` (R321): 0xCB 0x44, 8 cycles. -/
def execBit_0_H (s : State) : Result := bitLoc 0 (.reg .h) s

/-- `BIT 0,L` (R321): 0xCB 0x45, 8 cycles. -/
def execBit_0_L (s : State) : Result := bitLoc 0 (.reg .l) s

/-- `BIT 0,A` (R321): 0xCB 0x47, 8 cycles. -/
def execBit_0_A (s : State) : Result := bitLoc 0 (.reg .a) s

/-- `BIT 1,B` (R321): 0xCB 0x48, 8 cycles. -/
def execBit_1_B (s : State) : Result := bitLoc 1 (.reg .b) s

/-- `BIT 1,C` (R321): 0xCB 0x49, 8 cycles. -/
def execBit_1_C (s : State) : Result := bitLoc 1 (.reg .c) s

/-- `BIT 1,D` (R321): 0xCB 0x4A, 8 cycles. -/
def execBit_1_D (s : State) : Result := bitLoc 1 (.reg .d) s

/-- `BIT 1,E` (R321): 0xCB 0x4B, 8 cycles. -/
def execBit_1_E (s : State) : Result := bitLoc 1 (.reg .e) s

/-- `BIT 1,H` (R321): 0xCB 0x4C, 8 cycles. -/
def execBit_1_H (s : State) : Result := bitLoc 1 (.reg .h) s

/-- `BIT 1,L` (R321): 0xCB 0x4D, 8 cycles. -/
def execBit_1_L (s : State) : Result := bitLoc 1 (.reg .l) s

/-- `BIT 1,A` (R321): 0xCB 0x4F, 8 cycles. -/
def execBit_1_A (s : State) : Result := bitLoc 1 (.reg .a) s

/-- `BIT 2,B` (R321): 0xCB 0x50, 8 cycles. -/
def execBit_2_B (s : State) : Result := bitLoc 2 (.reg .b) s

/-- `BIT 2,C` (R321): 0xCB 0x51, 8 cycles. -/
def execBit_2_C (s : State) : Result := bitLoc 2 (.reg .c) s

/-- `BIT 2,D` (R321): 0xCB 0x52, 8 cycles. -/
def execBit_2_D (s : State) : Result := bitLoc 2 (.reg .d) s

/-- `BIT 2,E` (R321): 0xCB 0x53, 8 cycles. -/
def execBit_2_E (s : State) : Result := bitLoc 2 (.reg .e) s

/-- `BIT 2,H` (R321): 0xCB 0x54, 8 cycles. -/
def execBit_2_H (s : State) : Result := bitLoc 2 (.reg .h) s

/-- `BIT 2,L` (R321): 0xCB 0x55, 8 cycles. -/
def execBit_2_L (s : State) : Result := bitLoc 2 (.reg .l) s

/-- `BIT 2,A` (R321): 0xCB 0x57, 8 cycles. -/
def execBit_2_A (s : State) : Result := bitLoc 2 (.reg .a) s

/-- `BIT 3,B` (R321): 0xCB 0x58, 8 cycles. -/
def execBit_3_B (s : State) : Result := bitLoc 3 (.reg .b) s

/-- `BIT 3,C` (R321): 0xCB 0x59, 8 cycles. -/
def execBit_3_C (s : State) : Result := bitLoc 3 (.reg .c) s

/-- `BIT 3,D` (R321): 0xCB 0x5A, 8 cycles. -/
def execBit_3_D (s : State) : Result := bitLoc 3 (.reg .d) s

/-- `BIT 3,E` (R321): 0xCB 0x5B, 8 cycles. -/
def execBit_3_E (s : State) : Result := bitLoc 3 (.reg .e) s

/-- `BIT 3,H` (R321): 0xCB 0x5C, 8 cycles. -/
def execBit_3_H (s : State) : Result := bitLoc 3 (.reg .h) s

/-- `BIT 3,L` (R321): 0xCB 0x5D, 8 cycles. -/
def execBit_3_L (s : State) : Result := bitLoc 3 (.reg .l) s

/-- `BIT 3,A` (R321): 0xCB 0x5F, 8 cycles. -/
def execBit_3_A (s : State) : Result := bitLoc 3 (.reg .a) s

/-- `BIT 4,B` (R321): 0xCB 0x60, 8 cycles. -/
def execBit_4_B (s : State) : Result := bitLoc 4 (.reg .b) s

/-- `BIT 4,C` (R321): 0xCB 0x61, 8 cycles. -/
def execBit_4_C (s : State) : Result := bitLoc 4 (.reg .c) s

/-- `BIT 4,D` (R321): 0xCB 0x62, 8 cycles. -/
def execBit_4_D (s : State) : Result := bitLoc 4 (.reg .d) s

/-- `BIT 4,E` (R321): 0xCB 0x63, 8 cycles. -/
def execBit_4_E (s : State) : Result := bitLoc 4 (.reg .e) s

/-- `BIT 4,H` (R321): 0xCB 0x64, 8 cycles. -/
def execBit_4_H (s : State) : Result := bitLoc 4 (.reg .h) s

/-- `BIT 4,L` (R321): 0xCB 0x65, 8 cycles. -/
def execBit_4_L (s : State) : Result := bitLoc 4 (.reg .l) s

/-- `BIT 4,A` (R321): 0xCB 0x67, 8 cycles. -/
def execBit_4_A (s : State) : Result := bitLoc 4 (.reg .a) s

/-- `BIT 5,B` (R321): 0xCB 0x68, 8 cycles. -/
def execBit_5_B (s : State) : Result := bitLoc 5 (.reg .b) s

/-- `BIT 5,C` (R321): 0xCB 0x69, 8 cycles. -/
def execBit_5_C (s : State) : Result := bitLoc 5 (.reg .c) s

/-- `BIT 5,D` (R321): 0xCB 0x6A, 8 cycles. -/
def execBit_5_D (s : State) : Result := bitLoc 5 (.reg .d) s

/-- `BIT 5,E` (R321): 0xCB 0x6B, 8 cycles. -/
def execBit_5_E (s : State) : Result := bitLoc 5 (.reg .e) s

/-- `BIT 5,H` (R321): 0xCB 0x6C, 8 cycles. -/
def execBit_5_H (s : State) : Result := bitLoc 5 (.reg .h) s

/-- `BIT 5,L` (R321): 0xCB 0x6D, 8 cycles. -/
def execBit_5_L (s : State) : Result := bitLoc 5 (.reg .l) s

/-- `BIT 5,A` (R321): 0xCB 0x6F, 8 cycles. -/
def execBit_5_A (s : State) : Result := bitLoc 5 (.reg .a) s

/-- `BIT 6,B` (R321): 0xCB 0x70, 8 cycles. -/
def execBit_6_B (s : State) : Result := bitLoc 6 (.reg .b) s

/-- `BIT 6,C` (R321): 0xCB 0x71, 8 cycles. -/
def execBit_6_C (s : State) : Result := bitLoc 6 (.reg .c) s

/-- `BIT 6,D` (R321): 0xCB 0x72, 8 cycles. -/
def execBit_6_D (s : State) : Result := bitLoc 6 (.reg .d) s

/-- `BIT 6,E` (R321): 0xCB 0x73, 8 cycles. -/
def execBit_6_E (s : State) : Result := bitLoc 6 (.reg .e) s

/-- `BIT 6,H` (R321): 0xCB 0x74, 8 cycles. -/
def execBit_6_H (s : State) : Result := bitLoc 6 (.reg .h) s

/-- `BIT 6,L` (R321): 0xCB 0x75, 8 cycles. -/
def execBit_6_L (s : State) : Result := bitLoc 6 (.reg .l) s

/-- `BIT 6,A` (R321): 0xCB 0x77, 8 cycles. -/
def execBit_6_A (s : State) : Result := bitLoc 6 (.reg .a) s

/-- `BIT 7,B` (R321): 0xCB 0x78, 8 cycles. -/
def execBit_7_B (s : State) : Result := bitLoc 7 (.reg .b) s

/-- `BIT 7,C` (R321): 0xCB 0x79, 8 cycles. -/
def execBit_7_C (s : State) : Result := bitLoc 7 (.reg .c) s

/-- `BIT 7,D` (R321): 0xCB 0x7A, 8 cycles. -/
def execBit_7_D (s : State) : Result := bitLoc 7 (.reg .d) s

/-- `BIT 7,E` (R321): 0xCB 0x7B, 8 cycles. -/
def execBit_7_E (s : State) : Result := bitLoc 7 (.reg .e) s

/-- `BIT 7,H` (R321): 0xCB 0x7C, 8 cycles. -/
def execBit_7_H (s : State) : Result := bitLoc 7 (.reg .h) s

/-- `BIT 7,L` (R321): 0xCB 0x7D, 8 cycles. -/
def execBit_7_L (s : State) : Result := bitLoc 7 (.reg .l) s

/-- `BIT 7,A` (R321): 0xCB 0x7F, 8 cycles. -/
def execBit_7_A (s : State) : Result := bitLoc 7 (.reg .a) s

/-- `BIT 0,(HL)` (R322): 0xCB 0x46, 16 cycles. -/
def execBit_0_atHL (s : State) : Result := bitLoc 0 .atHL s

/-- `BIT 1,(HL)` (R322): 0xCB 0x4E, 16 cycles. -/
def execBit_1_atHL (s : State) : Result := bitLoc 1 .atHL s

/-- `BIT 2,(HL)` (R322): 0xCB 0x56, 16 cycles. -/
def execBit_2_atHL (s : State) : Result := bitLoc 2 .atHL s

/-- `BIT 3,(HL)` (R322): 0xCB 0x5E, 16 cycles. -/
def execBit_3_atHL (s : State) : Result := bitLoc 3 .atHL s

/-- `BIT 4,(HL)` (R322): 0xCB 0x66, 16 cycles. -/
def execBit_4_atHL (s : State) : Result := bitLoc 4 .atHL s

/-- `BIT 5,(HL)` (R322): 0xCB 0x6E, 16 cycles. -/
def execBit_5_atHL (s : State) : Result := bitLoc 5 .atHL s

/-- `BIT 6,(HL)` (R322): 0xCB 0x76, 16 cycles. -/
def execBit_6_atHL (s : State) : Result := bitLoc 6 .atHL s

/-- `BIT 7,(HL)` (R322): 0xCB 0x7E, 16 cycles. -/
def execBit_7_atHL (s : State) : Result := bitLoc 7 .atHL s

/-- `RES 0,B` (R323): 0xCB 0x80, 8 cycles. -/
def execRes_0_B (s : State) : Result := resLoc 0 (.reg .b) s

/-- `RES 0,C` (R323): 0xCB 0x81, 8 cycles. -/
def execRes_0_C (s : State) : Result := resLoc 0 (.reg .c) s

/-- `RES 0,D` (R323): 0xCB 0x82, 8 cycles. -/
def execRes_0_D (s : State) : Result := resLoc 0 (.reg .d) s

/-- `RES 0,E` (R323): 0xCB 0x83, 8 cycles. -/
def execRes_0_E (s : State) : Result := resLoc 0 (.reg .e) s

/-- `RES 0,H` (R323): 0xCB 0x84, 8 cycles. -/
def execRes_0_H (s : State) : Result := resLoc 0 (.reg .h) s

/-- `RES 0,L` (R323): 0xCB 0x85, 8 cycles. -/
def execRes_0_L (s : State) : Result := resLoc 0 (.reg .l) s

/-- `RES 0,A` (R323): 0xCB 0x87, 8 cycles. -/
def execRes_0_A (s : State) : Result := resLoc 0 (.reg .a) s

/-- `RES 1,B` (R323): 0xCB 0x88, 8 cycles. -/
def execRes_1_B (s : State) : Result := resLoc 1 (.reg .b) s

/-- `RES 1,C` (R323): 0xCB 0x89, 8 cycles. -/
def execRes_1_C (s : State) : Result := resLoc 1 (.reg .c) s

/-- `RES 1,D` (R323): 0xCB 0x8A, 8 cycles. -/
def execRes_1_D (s : State) : Result := resLoc 1 (.reg .d) s

/-- `RES 1,E` (R323): 0xCB 0x8B, 8 cycles. -/
def execRes_1_E (s : State) : Result := resLoc 1 (.reg .e) s

/-- `RES 1,H` (R323): 0xCB 0x8C, 8 cycles. -/
def execRes_1_H (s : State) : Result := resLoc 1 (.reg .h) s

/-- `RES 1,L` (R323): 0xCB 0x8D, 8 cycles. -/
def execRes_1_L (s : State) : Result := resLoc 1 (.reg .l) s

/-- `RES 1,A` (R323): 0xCB 0x8F, 8 cycles. -/
def execRes_1_A (s : State) : Result := resLoc 1 (.reg .a) s

/-- `RES 2,B` (R323): 0xCB 0x90, 8 cycles. -/
def execRes_2_B (s : State) : Result := resLoc 2 (.reg .b) s

/-- `RES 2,C` (R323): 0xCB 0x91, 8 cycles. -/
def execRes_2_C (s : State) : Result := resLoc 2 (.reg .c) s

/-- `RES 2,D` (R323): 0xCB 0x92, 8 cycles. -/
def execRes_2_D (s : State) : Result := resLoc 2 (.reg .d) s

/-- `RES 2,E` (R323): 0xCB 0x93, 8 cycles. -/
def execRes_2_E (s : State) : Result := resLoc 2 (.reg .e) s

/-- `RES 2,H` (R323): 0xCB 0x94, 8 cycles. -/
def execRes_2_H (s : State) : Result := resLoc 2 (.reg .h) s

/-- `RES 2,L` (R323): 0xCB 0x95, 8 cycles. -/
def execRes_2_L (s : State) : Result := resLoc 2 (.reg .l) s

/-- `RES 2,A` (R323): 0xCB 0x97, 8 cycles. -/
def execRes_2_A (s : State) : Result := resLoc 2 (.reg .a) s

/-- `RES 3,B` (R323): 0xCB 0x98, 8 cycles. -/
def execRes_3_B (s : State) : Result := resLoc 3 (.reg .b) s

/-- `RES 3,C` (R323): 0xCB 0x99, 8 cycles. -/
def execRes_3_C (s : State) : Result := resLoc 3 (.reg .c) s

/-- `RES 3,D` (R323): 0xCB 0x9A, 8 cycles. -/
def execRes_3_D (s : State) : Result := resLoc 3 (.reg .d) s

/-- `RES 3,E` (R323): 0xCB 0x9B, 8 cycles. -/
def execRes_3_E (s : State) : Result := resLoc 3 (.reg .e) s

/-- `RES 3,H` (R323): 0xCB 0x9C, 8 cycles. -/
def execRes_3_H (s : State) : Result := resLoc 3 (.reg .h) s

/-- `RES 3,L` (R323): 0xCB 0x9D, 8 cycles. -/
def execRes_3_L (s : State) : Result := resLoc 3 (.reg .l) s

/-- `RES 3,A` (R323): 0xCB 0x9F, 8 cycles. -/
def execRes_3_A (s : State) : Result := resLoc 3 (.reg .a) s

/-- `RES 4,B` (R323): 0xCB 0xA0, 8 cycles. -/
def execRes_4_B (s : State) : Result := resLoc 4 (.reg .b) s

/-- `RES 4,C` (R323): 0xCB 0xA1, 8 cycles. -/
def execRes_4_C (s : State) : Result := resLoc 4 (.reg .c) s

/-- `RES 4,D` (R323): 0xCB 0xA2, 8 cycles. -/
def execRes_4_D (s : State) : Result := resLoc 4 (.reg .d) s

/-- `RES 4,E` (R323): 0xCB 0xA3, 8 cycles. -/
def execRes_4_E (s : State) : Result := resLoc 4 (.reg .e) s

/-- `RES 4,H` (R323): 0xCB 0xA4, 8 cycles. -/
def execRes_4_H (s : State) : Result := resLoc 4 (.reg .h) s

/-- `RES 4,L` (R323): 0xCB 0xA5, 8 cycles. -/
def execRes_4_L (s : State) : Result := resLoc 4 (.reg .l) s

/-- `RES 4,A` (R323): 0xCB 0xA7, 8 cycles. -/
def execRes_4_A (s : State) : Result := resLoc 4 (.reg .a) s

/-- `RES 5,B` (R323): 0xCB 0xA8, 8 cycles. -/
def execRes_5_B (s : State) : Result := resLoc 5 (.reg .b) s

/-- `RES 5,C` (R323): 0xCB 0xA9, 8 cycles. -/
def execRes_5_C (s : State) : Result := resLoc 5 (.reg .c) s

/-- `RES 5,D` (R323): 0xCB 0xAA, 8 cycles. -/
def execRes_5_D (s : State) : Result := resLoc 5 (.reg .d) s

/-- `RES 5,E` (R323): 0xCB 0xAB, 8 cycles. -/
def execRes_5_E (s : State) : Result := resLoc 5 (.reg .e) s

/-- `RES 5,H` (R323): 0xCB 0xAC, 8 cycles. -/
def execRes_5_H (s : State) : Result := resLoc 5 (.reg .h) s

/-- `RES 5,L` (R323): 0xCB 0xAD, 8 cycles. -/
def execRes_5_L (s : State) : Result := resLoc 5 (.reg .l) s

/-- `RES 5,A` (R323): 0xCB 0xAF, 8 cycles. -/
def execRes_5_A (s : State) : Result := resLoc 5 (.reg .a) s

/-- `RES 6,B` (R323): 0xCB 0xB0, 8 cycles. -/
def execRes_6_B (s : State) : Result := resLoc 6 (.reg .b) s

/-- `RES 6,C` (R323): 0xCB 0xB1, 8 cycles. -/
def execRes_6_C (s : State) : Result := resLoc 6 (.reg .c) s

/-- `RES 6,D` (R323): 0xCB 0xB2, 8 cycles. -/
def execRes_6_D (s : State) : Result := resLoc 6 (.reg .d) s

/-- `RES 6,E` (R323): 0xCB 0xB3, 8 cycles. -/
def execRes_6_E (s : State) : Result := resLoc 6 (.reg .e) s

/-- `RES 6,H` (R323): 0xCB 0xB4, 8 cycles. -/
def execRes_6_H (s : State) : Result := resLoc 6 (.reg .h) s

/-- `RES 6,L` (R323): 0xCB 0xB5, 8 cycles. -/
def execRes_6_L (s : State) : Result := resLoc 6 (.reg .l) s

/-- `RES 6,A` (R323): 0xCB 0xB7, 8 cycles. -/
def execRes_6_A (s : State) : Result := resLoc 6 (.reg .a) s

/-- `RES 7,B` (R323): 0xCB 0xB8, 8 cycles. -/
def execRes_7_B (s : State) : Result := resLoc 7 (.reg .b) s

/-- `RES 7,C` (R323): 0xCB 0xB9, 8 cycles. -/
def execRes_7_C (s : State) : Result := resLoc 7 (.reg .c) s

/-- `RES 7,D` (R323): 0xCB 0xBA, 8 cycles. -/
def execRes_7_D (s : State) : Result := resLoc 7 (.reg .d) s

/-- `RES 7,E` (R323): 0xCB 0xBB, 8 cycles. -/
def execRes_7_E (s : State) : Result := resLoc 7 (.reg .e) s

/-- `RES 7,H` (R323): 0xCB 0xBC, 8 cycles. -/
def execRes_7_H (s : State) : Result := resLoc 7 (.reg .h) s

/-- `RES 7,L` (R323): 0xCB 0xBD, 8 cycles. -/
def execRes_7_L (s : State) : Result := resLoc 7 (.reg .l) s

/-- `RES 7,A` (R323): 0xCB 0xBF, 8 cycles. -/
def execRes_7_A (s : State) : Result := resLoc 7 (.reg .a) s

/-- `RES 0,(HL)` (R324): 0xCB 0x86, 16 cycles. -/
def execRes_0_atHL (s : State) : Result := resLoc 0 .atHL s

/-- `RES 1,(HL)` (R324): 0xCB 0x8E, 16 cycles. -/
def execRes_1_atHL (s : State) : Result := resLoc 1 .atHL s

/-- `RES 2,(HL)` (R324): 0xCB 0x96, 16 cycles. -/
def execRes_2_atHL (s : State) : Result := resLoc 2 .atHL s

/-- `RES 3,(HL)` (R324): 0xCB 0x9E, 16 cycles. -/
def execRes_3_atHL (s : State) : Result := resLoc 3 .atHL s

/-- `RES 4,(HL)` (R324): 0xCB 0xA6, 16 cycles. -/
def execRes_4_atHL (s : State) : Result := resLoc 4 .atHL s

/-- `RES 5,(HL)` (R324): 0xCB 0xAE, 16 cycles. -/
def execRes_5_atHL (s : State) : Result := resLoc 5 .atHL s

/-- `RES 6,(HL)` (R324): 0xCB 0xB6, 16 cycles. -/
def execRes_6_atHL (s : State) : Result := resLoc 6 .atHL s

/-- `RES 7,(HL)` (R324): 0xCB 0xBE, 16 cycles. -/
def execRes_7_atHL (s : State) : Result := resLoc 7 .atHL s

/-- `SET 0,B` (R325): 0xCB 0xC0, 8 cycles. -/
def execSet_0_B (s : State) : Result := setLoc 0 (.reg .b) s

/-- `SET 0,C` (R325): 0xCB 0xC1, 8 cycles. -/
def execSet_0_C (s : State) : Result := setLoc 0 (.reg .c) s

/-- `SET 0,D` (R325): 0xCB 0xC2, 8 cycles. -/
def execSet_0_D (s : State) : Result := setLoc 0 (.reg .d) s

/-- `SET 0,E` (R325): 0xCB 0xC3, 8 cycles. -/
def execSet_0_E (s : State) : Result := setLoc 0 (.reg .e) s

/-- `SET 0,H` (R325): 0xCB 0xC4, 8 cycles. -/
def execSet_0_H (s : State) : Result := setLoc 0 (.reg .h) s

/-- `SET 0,L` (R325): 0xCB 0xC5, 8 cycles. -/
def execSet_0_L (s : State) : Result := setLoc 0 (.reg .l) s

/-- `SET 0,A` (R325): 0xCB 0xC7, 8 cycles. -/
def execSet_0_A (s : State) : Result := setLoc 0 (.reg .a) s

/-- `SET 1,B` (R325): 0xCB 0xC8, 8 cycles. -/
def execSet_1_B (s : State) : Result := setLoc 1 (.reg .b) s

/-- `SET 1,C` (R325): 0xCB 0xC9, 8 cycles. -/
def execSet_1_C (s : State) : Result := setLoc 1 (.reg .c) s

/-- `SET 1,D` (R325): 0xCB 0xCA, 8 cycles. -/
def execSet_1_D (s : State) : Result := setLoc 1 (.reg .d) s

/-- `SET 1,E` (R325): 0xCB 0xCB, 8 cycles. -/
def execSet_1_E (s : State) : Result := setLoc 1 (.reg .e) s

/-- `SET 1,H` (R325): 0xCB 0xCC, 8 cycles. -/
def execSet_1_H (s : State) : Result := setLoc 1 (.reg .h) s

/-- `SET 1,L` (R325): 0xCB 0xCD, 8 cycles. -/
def execSet_1_L (s : State) : Result := setLoc 1 (.reg .l) s

/-- `SET 1,A` (R325): 0xCB 0xCF, 8 cycles. -/
def execSet_1_A (s : State) : Result := setLoc 1 (.reg .a) s

/-- `SET 2,B` (R325): 0xCB 0xD0, 8 cycles. -/
def execSet_2_B (s : State) : Result := setLoc 2 (.reg .b) s

/-- `SET 2,C` (R325): 0xCB 0xD1, 8 cycles. -/
def execSet_2_C (s : State) : Result := setLoc 2 (.reg .c) s

/-- `SET 2,D` (R325): 0xCB 0xD2, 8 cycles. -/
def execSet_2_D (s : State) : Result := setLoc 2 (.reg .d) s

/-- `SET 2,E` (R325): 0xCB 0xD3, 8 cycles. -/
def execSet_2_E (s : State) : Result := setLoc 2 (.reg .e) s

/-- `SET 2,H` (R325): 0xCB 0xD4, 8 cycles. -/
def execSet_2_H (s : State) : Result := setLoc 2 (.reg .h) s

/-- `SET 2,L` (R325): 0xCB 0xD5, 8 cycles. -/
def execSet_2_L (s : State) : Result := setLoc 2 (.reg .l) s

/-- `SET 2,A` (R325): 0xCB 0xD7, 8 cycles. -/
def execSet_2_A (s : State) : Result := setLoc 2 (.reg .a) s

/-- `SET 3,B` (R325): 0xCB 0xD8, 8 cycles. -/
def execSet_3_B (s : State) : Result := setLoc 3 (.reg .b) s

/-- `SET 3,C` (R325): 0xCB 0xD9, 8 cycles. -/
def execSet_3_C (s : State) : Result := setLoc 3 (.reg .c) s

/-- `SET 3,D` (R325): 0xCB 0xDA, 8 cycles. -/
def execSet_3_D (s : State) : Result := setLoc 3 (.reg .d) s

/-- `SET 3,E` (R325): 0xCB 0xDB, 8 cycles. -/
def execSet_3_E (s : State) : Result := setLoc 3 (.reg .e) s

/-- `SET 3,H` (R325): 0xCB 0xDC, 8 cycles. -/
def execSet_3_H (s : State) : Result := setLoc 3 (.reg .h) s

/-- `SET 3,L` (R325): 0xCB 0xDD, 8 cycles. -/
def execSet_3_L (s : State) : Result := setLoc 3 (.reg .l) s

/-- `SET 3,A` (R325): 0xCB 0xDF, 8 cycles. -/
def execSet_3_A (s : State) : Result := setLoc 3 (.reg .a) s

/-- `SET 4,B` (R325): 0xCB 0xE0, 8 cycles. -/
def execSet_4_B (s : State) : Result := setLoc 4 (.reg .b) s

/-- `SET 4,C` (R325): 0xCB 0xE1, 8 cycles. -/
def execSet_4_C (s : State) : Result := setLoc 4 (.reg .c) s

/-- `SET 4,D` (R325): 0xCB 0xE2, 8 cycles. -/
def execSet_4_D (s : State) : Result := setLoc 4 (.reg .d) s

/-- `SET 4,E` (R325): 0xCB 0xE3, 8 cycles. -/
def execSet_4_E (s : State) : Result := setLoc 4 (.reg .e) s

/-- `SET 4,H` (R325): 0xCB 0xE4, 8 cycles. -/
def execSet_4_H (s : State) : Result := setLoc 4 (.reg .h) s

/-- `SET 4,L` (R325): 0xCB 0xE5, 8 cycles. -/
def execSet_4_L (s : State) : Result := setLoc 4 (.reg .l) s

/-- `SET 4,A` (R325): 0xCB 0xE7, 8 cycles. -/
def execSet_4_A (s : State) : Result := setLoc 4 (.reg .a) s

/-- `SET 5,B` (R325): 0xCB 0xE8, 8 cycles. -/
def execSet_5_B (s : State) : Result := setLoc 5 (.reg .b) s

/-- `SET 5,C` (R325): 0xCB 0xE9, 8 cycles. -/
def execSet_5_C (s : State) : Result := setLoc 5 (.reg .c) s

/-- `SET 5,D` (R325): 0xCB 0xEA, 8 cycles. -/
def execSet_5_D (s : State) : Result := setLoc 5 (.reg .d) s

/-- `SET 5,E` (R325): 0xCB 0xEB, 8 cycles. -/
def execSet_5_E (s : State) : Result := setLoc 5 (.reg .e) s

/-- `SET 5,H` (R325): 0xCB 0xEC, 8 cycles. -/
def execSet_5_H (s : State) : Result := setLoc 5 (.reg .h) s

/-- `SET 5,L` (R325): 0xCB 0xED, 8 cycles. -/
def execSet_5_L (s : State) : Result := setLoc 5 (.reg .l) s

/-- `SET 5,A` (R325): 0xCB 0xEF, 8 cycles. -/
def execSet_5_A (s : State) : Result := setLoc 5 (.reg .a) s

/-- `SET 6,B` (R325): 0xCB 0xF0, 8 cycles. -/
def execSet_6_B (s : State) : Result := setLoc 6 (.reg .b) s

/-- `SET 6,C` (R325): 0xCB 0xF1, 8 cycles. -/
def execSet_6_C (s : State) : Result := setLoc 6 (.reg .c) s

/-- `SET 6,D` (R325): 0xCB 0xF2, 8 cycles. -/
def execSet_6_D (s : State) : Result := setLoc 6 (.reg .d) s

/-- `SET 6,E` (R325): 0xCB 0xF3, 8 cycles. -/
def execSet_6_E (s : State) : Result := setLoc 6 (.reg .e) s

/-- `SET 6,H` (R325): 0xCB 0xF4, 8 cycles. -/
def execSet_6_H (s : State) : Result := setLoc 6 (.reg .h) s

/-- `SET 6,L` (R325): 0xCB 0xF5, 8 cycles. -/
def execSet_6_L (s : State) : Result := setLoc 6 (.reg .l) s

/-- `SET 6,A` (R325): 0xCB 0xF7, 8 cycles. -/
def execSet_6_A (s : State) : Result := setLoc 6 (.reg .a) s

/-- `SET 7,B` (R325): 0xCB 0xF8, 8 cycles. -/
def execSet_7_B (s : State) : Result := setLoc 7 (.reg .b) s

/-- `SET 7,C` (R325): 0xCB 0xF9, 8 cycles. -/
def execSet_7_C (s : State) : Result := setLoc 7 (.reg .c) s

/-- `SET 7,D` (R325): 0xCB 0xFA, 8 cycles. -/
def execSet_7_D (s : State) : Result := setLoc 7 (.reg .d) s

/-- `SET 7,E` (R325): 0xCB 0xFB, 8 cycles. -/
def execSet_7_E (s : State) : Result := setLoc 7 (.reg .e) s

/-- `SET 7,H` (R325): 0xCB 0xFC, 8 cycles. -/
def execSet_7_H (s : State) : Result := setLoc 7 (.reg .h) s

/-- `SET 7,L` (R325): 0xCB 0xFD, 8 cycles. -/
def execSet_7_L (s : State) : Result := setLoc 7 (.reg .l) s

/-- `SET 7,A` (R325): 0xCB 0xFF, 8 cycles. -/
def execSet_7_A (s : State) : Result := setLoc 7 (.reg .a) s

/-- `SET 0,(HL)` (R326): 0xCB 0xC6, 16 cycles. -/
def execSet_0_atHL (s : State) : Result := setLoc 0 .atHL s

/-- `SET 1,(HL)` (R326): 0xCB 0xCE, 16 cycles. -/
def execSet_1_atHL (s : State) : Result := setLoc 1 .atHL s

/-- `SET 2,(HL)` (R326): 0xCB 0xD6, 16 cycles. -/
def execSet_2_atHL (s : State) : Result := setLoc 2 .atHL s

/-- `SET 3,(HL)` (R326): 0xCB 0xDE, 16 cycles. -/
def execSet_3_atHL (s : State) : Result := setLoc 3 .atHL s

/-- `SET 4,(HL)` (R326): 0xCB 0xE6, 16 cycles. -/
def execSet_4_atHL (s : State) : Result := setLoc 4 .atHL s

/-- `SET 5,(HL)` (R326): 0xCB 0xEE, 16 cycles. -/
def execSet_5_atHL (s : State) : Result := setLoc 5 .atHL s

/-- `SET 6,(HL)` (R326): 0xCB 0xF6, 16 cycles. -/
def execSet_6_atHL (s : State) : Result := setLoc 6 .atHL s

/-- `SET 7,(HL)` (R326): 0xCB 0xFE, 16 cycles. -/
def execSet_7_atHL (s : State) : Result := setLoc 7 .atHL s

end Sys2Proof.Machine
end

