-- ==== Sys2Proof/Machine/System.lean ====
section
/-! DEFINITION. System instructions, the CB prefix and the illegal opcodes (46_system.md, R350 to R356). -/

namespace Sys2Proof.Machine

/-- R350. -/
def nopOp (s : State) : Result := retire 4 s

/-- R351. -/
def haltOp (s : State) : Result := retire 4 { s with cpu := { s.cpu with halted := true } }

/-- R352, R434: DIV keeps its value; its accumulator is reset and frozen. -/
def stopOp (s : State) : Result :=
  retire 4
    { s with cpu := { s.cpu with stopped := true }, timer := { s.timer with divAcc := 0, divFrozen := true } }

/-- R353. -/
def diOp (s : State) : Result := retire 4 (disableInterrupts s)

/-- R354. -/
def eiOp (s : State) : Result := retire 4 (orderEnableAll s)

/-- The rotate, shift or swap kind of a 3-bit field (R121). -/
def shiftOfCode (y : BitVec 3) : ShiftOp :=
  match y.toNat with
  | 0 => .rlc
  | 1 => .rrc
  | 2 => .rl
  | 3 => .rr
  | 4 => .sla
  | 5 => .sra
  | 6 => .swap
  | _ => .srl

/-- The operand of a 3-bit `reg_id` (R115). -/
def locOfCode (z : BitVec 3) : Loc :=
  match z.toNat with
  | 0 => .reg .b
  | 1 => .reg .c
  | 2 => .reg .d
  | 3 => .reg .e
  | 4 => .reg .h
  | 5 => .reg .l
  | 6 => .atHL
  | _ => .reg .a

/-- R355: execute the CB-page instruction the byte selects by its fields (R121). -/
def cbPageOp (cb : Byte) (s : State) : Result :=
  let l := locOfCode (cb.extractLsb' 0 3)
  let y := cb.extractLsb' 3 3
  match (cb.extractLsb' 6 2).toNat with
  | 0 => shiftLoc (shiftOfCode y) l s
  | 1 => bitLoc y.toFin l s
  | 2 => resLoc y.toFin l s
  | _ => setLoc y.toFin l s

/-- R356: the fault records the opcode and the address it was fetched from. -/
def illegalOp (op : Byte) (s : State) : Result :=
  raiseFault { kind := .illegalOpcode, opcode := op, address := s.cpu.pc - 1 } s

/-! ### The meanings, one per row, in the order of their rules -/

/-- `NOP` (R350): 0x00, 4 cycles. -/
def execNop (s : State) : Result := nopOp s

/-- `HALT` (R351): 0x76, 4 cycles. -/
def execHalt (s : State) : Result := haltOp s

/-- `STOP` (R352): 0x10, 4 cycles. -/
def execStop (_ignored : Byte) (s : State) : Result := stopOp s

/-- `DI` (R353): 0xF3, 4 cycles. -/
def execDi (s : State) : Result := diOp s

/-- `EI` (R354): 0xFB, 4 cycles. -/
def execEi (s : State) : Result := eiOp s

/-- `PREFIX CB` (R355): 0xCB, the selected instruction's cycles. -/
def execPrefix_CB (cb : Byte) (s : State) : Result := cbPageOp cb s

/-- `ILLEGAL 0xD3` (R356): 0xD3, no cycle count. -/
def execIllegal_D3 (s : State) : Result := illegalOp 0xD3 s

/-- `ILLEGAL 0xDB` (R356): 0xDB, no cycle count. -/
def execIllegal_DB (s : State) : Result := illegalOp 0xDB s

/-- `ILLEGAL 0xDD` (R356): 0xDD, no cycle count. -/
def execIllegal_DD (s : State) : Result := illegalOp 0xDD s

/-- `ILLEGAL 0xE3` (R356): 0xE3, no cycle count. -/
def execIllegal_E3 (s : State) : Result := illegalOp 0xE3 s

/-- `ILLEGAL 0xE4` (R356): 0xE4, no cycle count. -/
def execIllegal_E4 (s : State) : Result := illegalOp 0xE4 s

/-- `ILLEGAL 0xEB` (R356): 0xEB, no cycle count. -/
def execIllegal_EB (s : State) : Result := illegalOp 0xEB s

/-- `ILLEGAL 0xEC` (R356): 0xEC, no cycle count. -/
def execIllegal_EC (s : State) : Result := illegalOp 0xEC s

/-- `ILLEGAL 0xED` (R356): 0xED, no cycle count. -/
def execIllegal_ED (s : State) : Result := illegalOp 0xED s

/-- `ILLEGAL 0xF4` (R356): 0xF4, no cycle count. -/
def execIllegal_F4 (s : State) : Result := illegalOp 0xF4 s

/-- `ILLEGAL 0xFC` (R356): 0xFC, no cycle count. -/
def execIllegal_FC (s : State) : Result := illegalOp 0xFC s

/-- `ILLEGAL 0xFD` (R356): 0xFD, no cycle count. -/
def execIllegal_FD (s : State) : Result := illegalOp 0xFD s

end Sys2Proof.Machine
end

