-- ==== Sys2Proof/Machine/Cpu.lean ====
section
/-! DEFINITION. `CPU.step()`: the prelude (wake checks, interrupt query), fetch and decode, the idle step, and the
EI-delay update (R112 of 30_encoding.md; R401, R419 of 60_exceptions.md). -/

namespace Sys2Proof.Machine

/-- The bytes the fetch reads at PC: the opcode byte and as many parameter bytes as its length says, each through the
Bus, PC wrapping (R112, R26). -/
def fetchBytes (s : State) : List Byte :=
  let op := memRead s.cpu.pc s
  (List.range (instrLength op)).map fun i => memRead (s.cpu.pc + BitVec.ofNat 16 i) s

/-- PC after the fetch: past the last byte of the instruction (R26, R112). -/
def fetchedPc (s : State) : Word := s.cpu.pc + BitVec.ofNat 16 (instrLength (memRead s.cpu.pc s))

/-- The instruction at PC (R112). A parameter byte beyond the instruction's length is not fetched. -/
def fetchedInstr (s : State) : Instr :=
  let bytes := fetchBytes s
  decodeOne (bytes.getD 0 0) (bytes.getD 1 0) (bytes.getD 2 0)

/-- Fetch, decode and execute (R112, part 3 of R401). -/
def fetchExecute (s : State) : Result := exec (fetchedInstr s) (s.setPc (fetchedPc s))

/-- Halted or stopped: the CPU fetches nothing (R30, R401). -/
def State.idle (s : State) : Bool := s.cpu.halted || s.cpu.stopped

/-- Parts 1 and 2 of `CPU.step()`: the cycle count starts at 0, the wake checks run, then the interrupt query (R401). -/
def cpuPrelude (s : State) : State := serviceInterrupts (wakeChecks { s with cycles := 0 })

/-- Part 3: execute, or idle for `IDLE_STEP_CYCLES` (R401). -/
def cpuExecute (s : State) : Result := if s.idle then retire Config.idleStepCycles s else fetchExecute s

/-- `CPU.step()` (R401), with `before` read before anything else; part 4 is `update_state` (R419). -/
def cpuStep (s : State) : Result := mapNext (updateState s.irq.imeSched) (cpuExecute (cpuPrelude s))

end Sys2Proof.Machine
end

