-- ==== Sys2Proof/Machine/Placement.lean ====
section
/-! DEFINITION. Placing a program from outside the machine, for State.withFetchWord (log 4 and 18). Not an operation of the
machine: no step calls it. -/

namespace Sys2Proof.Machine

/-- The cartridge a placement into ROM inserts where none is inserted: ROM-only, 32 KiB, every byte 0x00. -/
def emptyCartridge : Cartridge :=
  { mapper := .romOnly, romShift := 0, rom := [], ramBanks := 0, ram := [], ramEnable := false, bank1 := 1,
    bank2 := 0, bankMode := false }

/-- The offset into the ROM image that a read of 0x0000 to 0x7FFF reaches (R79, R84, R85). -/
def Cartridge.romOffset (c : Cartridge) (a : Nat) : Nat :=
  match c.mapper with
  | .romOnly => a
  | .mbc1 =>
    if a < Config.romBankSize then a else c.upperBank * Config.romBankSize + (a - Config.romBankSize)

/-- Make a read of the address return the byte, where the address is storage: a ROM byte of the image (a cartridge is
inserted if there is none), a RAM byte, or an IO register that holds 8 bits. Registers whose read is computed, and cartridge
RAM that is absent or disabled, take what a write gives them (log 18). -/
def placeByte (a : Word) (v : Byte) (s : State) : State :=
  match busOwner a.toNat with
  | .cartridgeRom =>
    let c := s.cartridge.getD emptyCartridge
    { s with cartridge := some { c with rom := c.rom.write (c.romOffset a.toNat) v } }
  | .io =>
    match ioReg a.toNat with
    | .sc => { s with serial := { s.serial with sc := v } }
    | .div => { s with timer := { s.timer with div := v } }
    | .ly => { s with ppu := { s.ppu with ly := v } }
    | _ => memWrite a v s
  | _ => memWrite a v s

/-- Place bytes at consecutive addresses, the first at the given one. -/
def placeBytes : Word → List Byte → State → State
  | _, [], s => s
  | a, v :: rest, s => placeBytes (a + 1) rest (placeByte a v s)

/-- Where the next step fetches its instruction: PC after the step's wake checks and interrupt query (R401). -/
def nextFetchAddress (s : State) : Word := (cpuPrelude s).cpu.pc

end Sys2Proof.Machine
end

