-- ==== Sys2Proof/Machine/Ppu.lean ====
section
/-! DEFINITION. `PPU.tick(c)` and the background renderer (R440 to R450 of 60_exceptions.md). -/

namespace Sys2Proof.Machine

/-- `BUDGET[ppu_mode]` (R450). -/
def dotBudget : PpuMode → Nat
  | .oamSearch => Config.ppuOamDots
  | .transfer => Config.ppuXferDots
  | .hblank => Config.ppuHblankDots
  | .vblank => Config.ppuLineDots

/-- STAT bit `k` for k in 3..6 (R40): the enables are held from bit 3 up. -/
def statBit (p : Ppu) (k : Nat) : Bool := p.statEn.getLsbD (k - 3)

/-- `if STAT[k] = 1 then signal(LCD STAT)` (R442 to R445). -/
def signalStatIf (k : Nat) (s : State) : State := if statBit s.ppu k then signal .lcdStat s else s

/-! ### Rendering (R446 to R448) -/

/-- `VRAM[a]`: VideoRAM byte `a - 0x8000`, read directly (R99, R448). -/
def State.vramAt (s : State) (a : Nat) : Byte := s.vram.read (a - 0x8000)

/-- `map_base` (R446). -/
def mapBase (lcdc : Byte) : Nat := if lcdc.getLsbD 3 then 0x9C00 else 0x9800

/-- `tile_addr(idx)` (R447): unsigned from 0x8000, or signed around 0x9000. -/
def tileAddr (lcdc : Byte) (idx : Byte) : Nat :=
  if lcdc.getLsbD 4 then 0x8000 + idx.toNat * 16 else (0x9000 + idx.toInt * 16).toNat

/-- The colour of pixel `x` of line `ly` (R448, with x = col * 8 + px). -/
def pixelColour (s : State) (ly x : Nat) : Colour :=
  let idx := s.vramAt (mapBase s.ppu.lcdc + (ly / 8) * 32 + x / 8)
  let addr := tileAddr s.ppu.lcdc idx + (ly % 8) * 2
  let lo := s.vramAt addr
  let hi := s.vramAt (addr + 1)
  let b := 7 - x % 8
  BitVec.ofBool (hi.getLsbD b) ++ BitVec.ofBool (lo.getLsbD b)

/-- A row of the reset framebuffer: every entry 0 (R43). -/
def blankRow : List Colour := List.replicate 256 0

/-- One framebuffer row (R43). -/
def State.fbRow (s : State) (row : Nat) : List Colour := Sparse.get blankRow s.ppu.framebuffer row

/-- One framebuffer entry (R43). -/
def State.fbPixel (s : State) (row x : Nat) : Colour := (s.fbRow row).getD x 0

/-- `render_line(ly)` (R448) writes row `ly`; there are 144 rows, so a larger `ly` (which no run reaches in
mode 2) writes none (log 17). -/
def renderLine (ly : Nat) (s : State) : State :=
  if ly < Config.ppuVisibleLines then
    { s with ppu := { s.ppu with
        framebuffer := Sparse.set blankRow s.ppu.framebuffer ly ((List.range 256).map (pixelColour s ly)) } }
  else s

/-! ### The scanline state machine -/

/-- `lyc_check()` (R445). -/
def lycCheck (s : State) : State :=
  let co := decide (s.ppu.ly = s.ppu.lyc)
  let s1 := { s with ppu := { s.ppu with coincidence := co } }
  if co then signalStatIf 6 s1 else s1

/-- `LY <- v`, followed by `lyc_check()` (R443, R444). -/
def setLy (v : Byte) (s : State) : State := lycCheck { s with ppu := { s.ppu with ly := v } }

/-- `ppu_mode <- m`. -/
def setMode (m : PpuMode) (s : State) : State := { s with ppu := { s.ppu with mode := m } }

/-- R441: the end of OAM search. -/
def endOamSearch (s : State) : State := renderLine s.ppu.ly.toNat (setMode .transfer s)

/-- R442: the end of pixel transfer. -/
def endTransfer (s : State) : State := signalStatIf 3 (setMode .hblank s)

/-- R443: the end of HBlank. -/
def endHblank (s : State) : State :=
  let s1 := setLy (s.ppu.ly + 1) s
  if s1.ppu.ly.toNat ≤ 143 then signalStatIf 5 (setMode .oamSearch s1)
  else signalStatIf 4 (signal .vblank (setMode .vblank s1))

/-- R444: the end of one VBlank line. -/
def endVblankLine (s : State) : State :=
  if s.ppu.ly = 153 then signalStatIf 5 (setMode .oamSearch (setLy 0 s))
  else setLy (s.ppu.ly + 1) s

/-- The transition of the current mode (R450). -/
def ppuTransition (s : State) : State :=
  match s.ppu.mode with
  | .oamSearch => endOamSearch s
  | .transfer => endTransfer s
  | .hblank => endHblank s
  | .vblank => endVblankLine s

/-- One round of R450's loop: the budget is taken off, then the transition. -/
def ppuRound (s : State) : State :=
  ppuTransition { s with ppu := { s.ppu with dots := s.ppu.dots - dotBudget s.ppu.mode } }

/-- The transition loop of R450, with at most the given number of rounds. Every round takes at least 80
dots, so `dots` rounds are enough (log 15). -/
def ppuLoop : Nat → State → State
  | 0, s => s
  | n + 1, s => if s.ppu.dots < dotBudget s.ppu.mode then s else ppuLoop n (ppuRound s)

/-- `PPU.tick(c)` (R440): nothing at all while LCDC bit 7 is 0. -/
def ppuTick (c : Nat) (s : State) : State :=
  if s.ppu.lcdc.getLsbD 7 then
    let s1 := { s with ppu := { s.ppu with dots := s.ppu.dots + c } }
    ppuLoop s1.ppu.dots s1
  else s

end Sys2Proof.Machine
end

