-- ==== Sys2Proof/Machine/Timer.lean ====
section
/-! DEFINITION. `Timer.tick(c)` (R430 to R434 of 60_exceptions.md; R36 of 10_state.md). The two while loops
are written as the quotient and the remainder they compute (log 15). -/

namespace Sys2Proof.Machine

/-- `TIMA_PERIOD[TAC[1:0]]` (R7, R36). -/
def timaPeriod (tac : BitVec 3) : Nat :=
  match (tac.extractLsb' 0 2).toNat with
  | 0 => 1024
  | 1 => 16
  | 2 => 64
  | _ => 256

/-- `TAC[2]` (R36). -/
def timaEnabled (tac : BitVec 3) : Bool := tac.getLsbD 2

/-- R430: DIV counts every 256 cycles unless STOP freezes it. -/
def divTick (c : Nat) (s : State) : State :=
  if s.timer.divFrozen then s
  else
    let acc := s.timer.divAcc + c
    { s with timer := { s.timer with
        div := s.timer.div + BitVec.ofNat 8 (acc / Config.divPeriod), divAcc := acc % Config.divPeriod } }

/-- `tima_increment()` (R432): the reload and the request are one event. -/
def timaIncrement (s : State) : State :=
  if s.timer.tima = 0xFF then signal .timer { s with timer := { s.timer with tima := s.timer.tma } }
  else { s with timer := { s.timer with tima := s.timer.tima + 1 } }

/-- `n` increments in a row (the loop of R431). -/
def timaIncrements : Nat → State → State
  | 0, s => s
  | n + 1, s => timaIncrements n (timaIncrement s)

/-- R431: TIMA counts while TAC[2] is set, and while stopped unless `STOP_FREEZES_TIMA`. -/
def timaTick (c : Nat) (s : State) : State :=
  if timaEnabled s.timer.tac = true ∧ ¬(s.cpu.stopped = true ∧ s.timer.stopFreezesTima = true) then
    let acc := s.timer.timaAcc + c
    let period := timaPeriod s.timer.tac
    timaIncrements (acc / period) { s with timer := { s.timer with timaAcc := acc % period } }
  else s

/-- `Timer.tick(c)`: the DIV part, then the TIMA part (R433). -/
def timerTick (c : Nat) (s : State) : State := timaTick c (divTick c s)

end Sys2Proof.Machine
end

