-- ==== Sys2Proof/Machine/Step.lean ====
section
/-! DEFINITION. The machine step (R400 of 60_exceptions.md), and the placement of an instruction where the next step fetches. -/

namespace Sys2Proof.Machine

/-- `Machine.step()` (R400): with a fault no step exists (R470); otherwise the CPU step, then `Timer.tick(c)`, then
`PPU.tick(c)` with its cycle count c. A faulting CPU step ticks nothing. -/
def step (s : State) : Host.Outcome State Fault Refusal :=
  match s.fault with
  | some r => .fault (.noStep r)
  | none => mapNext (fun t => ppuTick t.cycles (timerTick t.cycles t)) (cpuStep s)

/-- The state with an instruction, given in the opcode table's numbering, placed where the next step fetches (log 4, 10, 18). -/
def State.withFetchWord (s : State) (nbits w : Nat) : State :=
  placeBytes (nextFetchAddress s) (tableBytes nbits w) s

end Sys2Proof.Machine
end

