-- ==== Sys2Proof/Machine/HostActions.lean ====
section
/-! DEFINITION. What the host can do (R480 of 60_exceptions.md): load a cartridge (R78 of 20_memory.md), start the
machine, deliver joypad events between steps (R461), and observe outputs. -/

namespace Sys2Proof.Machine

/-- Why a cartridge load is refused, with the value the error names (R78). -/
inductive LoadError where
  | unsupportedType (type : Byte)
  | sizeMismatch (expected actual : Nat)
  deriving DecidableEq, Repr

/-- The mapper of a header type byte (R78). -/
def mapperOfType (type : Byte) : Option Mapper :=
  if type = 0x00 then some .romOnly
  else if type = 0x01 ∨ type = 0x02 ∨ type = 0x03 then some .mbc1
  else none

/-- The number of RAM banks of a header RAM-size id (R78). -/
def ramBanksOfId (id : Byte) : Nat :=
  if id = 0x02 then 1 else if id = 0x03 then 4 else if id = 0x04 then 16 else if id = 0x05 then 8 else 0

/-- `32 KiB << shift` (R78). -/
def romSize (shift : Nat) : Nat := 0x8000 <<< shift

/-- The checks of a load on the three header bytes and the file's size (R78): the mapper, or the refusal. The type is checked
before the size (DESIGN CHOICE, log 19). -/
def checkHeader (type shift : Byte) (size : Nat) : Except LoadError Mapper :=
  match mapperOfType type with
  | none => .error (.unsupportedType type)
  | some m => if size = romSize shift.toNat then .ok m else .error (.sizeMismatch (romSize shift.toNat) size)

/-- `load_cartridge(image)` (R78, R480), with the draw `InitMem` of the cartridge RAM's contents (R47). A header byte beyond
the end of a short file reads 0x00 here; such a file is refused for its size or its type (log 19). -/
def loadCartridge (image : List Byte) (ramDraw : Memory) : Except LoadError Cartridge :=
  let shift := image.getD 0x148 0
  match checkHeader (image.getD 0x147 0) shift image.length with
  | .error e => .error e
  | .ok m =>
    .ok
      { mapper := m, romShift := shift.toNat, rom := Memory.ofList image,
        ramBanks := ramBanksOfId (image.getD 0x149 0), ram := ramDraw, ramEnable := false, bank1 := 1,
        bank2 := 0, bankMode := false }

/-- The machine with a cartridge loaded and then reset, other arguments as in State.reset; a refused load inserts no cartridge
(R78, R502). -/
def bootWith (image : List Byte) (ramDraw : Memory) : State :=
  match loadCartridge image ramDraw with
  | .ok c => State.powerOn { PowerOn.default with cartridge := some c }
  | .error _ => State.reset

/-- `joypad_event(v)` between two steps (R461): a bit going from 1 to 0 requests the Joypad interrupt. -/
def joypadEvent (v : BitVec 4) (s : State) : State :=
  let s1 := { s with joypad := { s.joypad with input := v } }
  if s.joypad.input &&& ~~~v ≠ 0 then signal .joypad s1 else s1

/-- What the host does between and at steps of a run (R480). -/
inductive HostAction where
  | step
  | joypad (v : BitVec 4)
  deriving DecidableEq, Repr

/-- One host action: a machine step, or a joypad event, which is no step. -/
def hostAct : HostAction → State → Result
  | .step, s => Sys2Proof.Machine.step s
  | .joypad v, s => .next (joypadEvent v s)

/-- A run under host control: the actions in order; it ends with the list, or at a fault (R481). -/
def hostRun : List HostAction → State → Result
  | [], s => .next s
  | a :: rest, s =>
    match hostAct a s with
    | .next t => hostRun rest t
    | .fault r => .fault r
    | .refused r => .refused r

/-- `clock_hz()` (R482). -/
def clockHz : Nat := Config.clockHz

/-- Reading the framebuffer (R43, R480): 144 rows of 256 colours. -/
def State.framebufferRows (s : State) : List (List Colour) := (List.range Config.ppuVisibleLines).map s.fbRow

/-- Reading `serial_log` (R460, R480). -/
def State.serialLog (s : State) : List Byte := s.serial.log

end Sys2Proof.Machine
end

