-- ==== Sys2Proof/Safety.lean ====
section
/-! DEFINITION. The invariant of the machine's states (the ranges and relations 10_state.md gives its state, which rule out
states that no run reaches), and the words the claims are written in: running an instruction, what it keeps, what it
stores. -/

namespace Sys2Proof.Machine

/-- The keys of the fallback array (R76): 0xC000 to 0xFEFF and 0xFF80 to 0xFFFE. -/
def fallbackKey (k : Nat) : Bool := (decide (0xC000 ≤ k) && decide (k < 0xFF00)) || (decide (0xFF80 ≤ k) && decide (k < 0xFFFF))

/-- The keys of the plain IO bytes (R75): the addresses of 0xFF00 to 0xFF7F that name no register. -/
def plainKey (k : Nat) : Bool := decide (0xFF00 ≤ k) && decide (k < 0xFF80) && decide (ioReg k = .plain)

/-- A byte array in canonical form whose cells lie where the region has bytes. -/
def Memory.ok (p : Nat → Bool) (m : Memory) : Bool := m.wf && Sparse.within p m

/-- A loaded cartridge (R47, R78, R81, R85): the two arrays lie inside their declared sizes, and `bank1` is "never 0 and is already
masked to `rom_banks - 1`". -/
structure Cartridge.Ok (c : Cartridge) : Prop where
  rom : Memory.ok (fun k => decide (k < romSize c.romShift)) c.rom = true
  ram : Memory.ok (fun k => decide (k < c.ramBanks * Config.ramBankSize)) c.ram = true
  bankNotZero : c.bank1 ≠ 0
  bankInRange : c.bank1.toNat < c.romBanks

/-- The scanline and the mode agree: lines 0 to 143 are drawn, 144 to 153 are VBlank (R41, R443, R444). -/
def lineMatchesMode (mode : PpuMode) (ly : Nat) : Prop :=
  match mode with
  | .vblank => 144 ≤ ly ∧ ly ≤ 153
  | .oamSearch => ly ≤ 143
  | .transfer => ly ≤ 143
  | .hblank => ly ≤ 143

/-- The invariant. -/
structure State.Inv (s : State) : Prop where
  /-- R24: the low nibble of F is always 0. -/
  flagsLow : s.cpu.f &&& 0x0F = 0
  /-- R351, R352: a halted CPU runs no STOP and a stopped one no HALT. -/
  oneIdle : ¬(s.cpu.halted = true ∧ s.cpu.stopped = true)
  /-- R352, R416: DIV is frozen exactly while stopped. -/
  frozen : s.timer.divFrozen = s.cpu.stopped
  /-- R352, R434: STOP resets the accumulator and nothing adds to it until the wake. -/
  frozenAcc : s.cpu.stopped = true → s.timer.divAcc = 0
  /-- R35: `div_acc` is 0..255. -/
  divAcc : s.timer.divAcc < 256
  /-- R35, R431: `tima_acc` is below the longest period (log 16). -/
  timaAcc : s.timer.timaAcc < 1024
  /-- R42: `ppu_dots` is below the current mode's budget. -/
  dots : s.ppu.dots < dotBudget s.ppu.mode
  /-- R41, R443, R444. -/
  line : lineMatchesMode s.ppu.mode s.ppu.ly.toNat
  /-- R43: rows 0 to 143 of 256 entries, in canonical form. -/
  framebuffer : Sparse.wf blankRow s.ppu.framebuffer = true ∧ ∀ r ∈ s.ppu.framebuffer, r.1 < 144 ∧ r.2.length = 256
  /-- R47, R74. -/
  vram : Memory.ok (fun k => decide (k < 0x2000)) s.vram = true
  /-- R47, R75. -/
  ioPlain : Memory.ok plainKey s.ioPlain = true
  /-- R47, R76. -/
  ram : Memory.ok fallbackKey s.ram = true
  /-- R47, R78 to R86. -/
  cartridge : ∀ c, s.cartridge = some c → c.Ok
  /-- R470: a machine that goes on has no fault. -/
  fault : s.fault = none

/-! ### The words of the claims -/

/-- The three RAM arrays are in canonical form (part of the invariant). -/
structure State.Canonical (s : State) : Prop where
  vram : s.vram.wf = true
  ioPlain : s.ioPlain.wf = true
  ram : s.ram.wf = true

/-- The instruction is encoded by the bytes of its rule, and executing it answers a next state which has spent the rule's
cycles and satisfies `P`. PC in `s` already points past the instruction (R26). -/
def Runs (i : Instr) (bytes : List Byte) (cycles : Nat) (s : State) (P : State → Prop) : Prop :=
  encode i = bytes ∧ ∃ t, exec i s = .next t ∧ t.cycles = s.cycles + cycles ∧ P t

/-- The 8-bit registers other than the named ones are unchanged. -/
def KeepsBut (written : List Reg8) (s t : State) : Prop := ∀ r, r ∉ written → t.reg r = s.reg r

/-- F, SP and PC are unchanged. -/
structure KeepsFSpPc (s t : State) : Prop where
  f : t.cpu.f = s.cpu.f
  sp : t.cpu.sp = s.cpu.sp
  pc : t.cpu.pc = s.cpu.pc

/-- SP and PC are unchanged. -/
structure KeepsSpPc (s t : State) : Prop where
  sp : t.cpu.sp = s.cpu.sp
  pc : t.cpu.pc = s.cpu.pc

/-- The four flags are the given ones, and F's low nibble is 0 (R24). -/
structure HasFlags (f : Flags) (t : State) : Prop where
  flags : t.flags = f
  low : t.cpu.f &&& 0x0F = 0

/-- Nothing outside the registers and the cycle count is changed, and every address reads as before. -/
structure KeepsOutside (s t : State) : Prop where
  halted : t.cpu.halted = s.cpu.halted
  stopped : t.cpu.stopped = s.cpu.stopped
  irq : t.irq = s.irq
  timer : t.timer = s.timer
  ppu : t.ppu = s.ppu
  serial : t.serial = s.serial
  joypad : t.joypad = s.joypad
  vram : t.vram = s.vram
  ioPlain : t.ioPlain = s.ioPlain
  ram : t.ram = s.ram
  cartridge : t.cartridge = s.cartridge
  fault : t.fault = s.fault
  bytes : ∀ a, memRead a t = memRead a s

/-- The addresses whose byte a CPU read returns exactly as the CPU last wrote it: VideoRAM, the fallback array, the plain IO
bytes and the IO registers R75 stores whole. P1, DIV, TAC, IF, STAT and LY are not among them (R75, R95), nor is the
cartridge (R79 to R87). -/
def storesWhole (a : Word) : Bool :=
  match busOwner a.toNat with
  | .cartridgeRom => false
  | .cartridgeRam => false
  | .videoRam => true
  | .fallback => true
  | .io =>
    match ioReg a.toNat with
    | .p1 => false
    | .div => false
    | .tac => false
    | .iflag => false
    | .stat => false
    | .ly => false
    | _ => true

/-- The cartridge's two windows: 0x0000 to 0x7FFF and 0xA000 to 0xBFFF (R72). -/
def cartridgeWindow (a : Word) : Bool :=
  match busOwner a.toNat with
  | .cartridgeRom => true
  | .cartridgeRam => true
  | _ => false

/-- One store: the state outside the CPU and the cycle count is what MemWrite makes of `s`; the CPU's execution state is
unchanged; every other address reads as before, unless the store reached the MBC registers (0x0000 to 0x7FFF), which leaves
every address outside the cartridge's windows; and where the address stores whole it reads as the byte stored. -/
structure StoresByte (a : Word) (v : Byte) (s t : State) : Prop where
  outside : t = { memWrite a v s with cpu := t.cpu, cycles := t.cycles }
  halted : t.cpu.halted = s.cpu.halted
  stopped : t.cpu.stopped = s.cpu.stopped
  others : ∀ x, x ≠ a → (0x8000 ≤ a.toNat ∨ cartridgeWindow x = false) → memRead x t = memRead x s
  stored : s.Canonical → storesWhole a = true → memRead a t = v

/-- Two stores, the one to `a` before the one to `b`; otherwise as StoresByte. -/
structure StoresTwo (a : Word) (v : Byte) (b : Word) (w : Byte) (s t : State) : Prop where
  outside : t = { memWrite b w (memWrite a v s) with cpu := t.cpu, cycles := t.cycles }
  halted : t.cpu.halted = s.cpu.halted
  stopped : t.cpu.stopped = s.cpu.stopped
  others : ∀ x, x ≠ a → x ≠ b → ((0x8000 ≤ a.toNat ∧ 0x8000 ≤ b.toNat) ∨ cartridgeWindow x = false) →
    memRead x t = memRead x s
  storedFirst : s.Canonical → storesWhole a = true → memRead a t = v
  storedSecond : s.Canonical → storesWhole b = true → memRead b t = w

/-! ### What the rules of 40_load8.md to 46_system.md say a state becomes -/

/-- Register `r` takes the value `v`; no other register and no flag changes. -/
structure LoadsReg (r : Reg8) (v : Byte) (s t : State) : Prop where
  value : t.reg r = v
  regs : KeepsBut [r] s t
  fSpPc : KeepsFSpPc s t
  outside : KeepsOutside s t

/-- Register `r` takes the value `v` and F the flags `f`. -/
structure WritesReg (r : Reg8) (v : Byte) (f : Flags) (s t : State) : Prop where
  value : t.reg r = v
  flags : HasFlags f t
  regs : KeepsBut [r] s t
  spPc : KeepsSpPc s t
  outside : KeepsOutside s t

/-- F takes the flags `f`; no register changes. -/
structure WritesFlags (f : Flags) (s t : State) : Prop where
  flags : HasFlags f t
  regs : KeepsBut [] s t
  spPc : KeepsSpPc s t
  outside : KeepsOutside s t

/-- The byte at HL is rewritten with `v` and F takes the flags `f`. -/
structure RewritesAtHl (v : Byte) (f : Flags) (s t : State) : Prop where
  store : StoresByte s.hl v s t
  flags : HasFlags f t
  regs : KeepsBut [] s t
  spPc : KeepsSpPc s t

/-- The 8-bit registers a pair is made of (R21). -/
def pairRegs : Pair → List Reg8
  | .bc => [.b, .c]
  | .de => [.d, .e]
  | .hl => [.h, .l]
  | .sp => []

/-- A pair, or SP, takes the value `v`; no other register and no flag changes. -/
structure SetsPair (p : Pair) (v : Word) (s t : State) : Prop where
  value : t.pair p = v
  regs : KeepsBut (pairRegs p) s t
  sp : p ≠ .sp → t.cpu.sp = s.cpu.sp
  f : t.cpu.f = s.cpu.f
  pc : t.cpu.pc = s.cpu.pc
  outside : KeepsOutside s t

/-- PC takes the value `target`; nothing else changes. -/
structure JumpsTo (target : Word) (s t : State) : Prop where
  pc : t.cpu.pc = target
  regs : KeepsBut [] s t
  f : t.cpu.f = s.cpu.f
  sp : t.cpu.sp = s.cpu.sp
  outside : KeepsOutside s t

/-- `v` is pushed: the high byte at SP-1, then the low byte at SP-2, and SP goes down by 2 (R236). PC is left to the rule. -/
structure Pushes (v : Word) (s t : State) : Prop where
  sp : t.cpu.sp = s.cpu.sp - 2
  store : StoresTwo (s.cpu.sp - 1) v.hi (s.cpu.sp - 2) v.lo s t
  regs : KeepsBut [] s t
  f : t.cpu.f = s.cpu.f

/-- The 16-bit value at SP: low byte at SP, high byte at SP+1 (R237). -/
def stackTop (s : State) : Word := Word.ofBytes (memRead (s.cpu.sp + 1) s) (memRead s.cpu.sp s)

/-- The value at SP is popped into PC (R338). -/
structure ReturnsFrom (s t : State) : Prop where
  pc : t.cpu.pc = stackTop s
  sp : t.cpu.sp = s.cpu.sp + 2
  regs : KeepsBut [] s t
  f : t.cpu.f = s.cpu.f
  outside : KeepsOutside s t

/-- The truth of a condition, read from F's bits 7 and 4 (R24, R118). -/
def condTrue (cc : Cond) (s : State) : Prop :=
  match cc with
  | .nz => s.cpu.f.getLsbD 7 = false
  | .z => s.cpu.f.getLsbD 7 = true
  | .nc => s.cpu.f.getLsbD 4 = false
  | .c => s.cpu.f.getLsbD 4 = true

/-- R250's flags, in unbounded integers. -/
def sumFlags (a b carry : Nat) : Flags where
  z := decide ((a + b + carry) % 256 = 0)
  n := false
  h := decide (a % 16 + b % 16 + carry > 0x0F)
  c := decide (a + b + carry > 0xFF)

/-- R251's flags, in unbounded integers. -/
def differenceFlags (a b borrow : Nat) : Flags where
  z := decide (((a : Int) - b - borrow) % 256 = 0)
  n := true
  h := decide (a % 16 < b % 16 + borrow)
  c := decide (a < b + borrow)

/-- A gains `v` and the carry, by rule R250. -/
def AddsToA (v : Byte) (carry : Bool) (s t : State) : Prop :=
  WritesReg .a (BitVec.ofNat 8 (s.cpu.a.toNat + v.toNat + carry.toNat)) (sumFlags s.cpu.a.toNat v.toNat carry.toNat) s t

/-- A loses `v` and the borrow, by rule R251. -/
def SubtractsFromA (v : Byte) (borrow : Bool) (s t : State) : Prop :=
  WritesReg .a (BitVec.ofInt 8 ((s.cpu.a.toNat : Int) - v.toNat - borrow.toNat))
    (differenceFlags s.cpu.a.toNat v.toNat borrow.toNat) s t

/-- Rule R281 in unbounded integers: the adjusted value and the carry. -/
def daaValue (a : Nat) (f : Flags) : Int × Bool :=
  if f.n then ((a : Int) - (if f.c then 0x60 else 0) - (if f.h then 0x06 else 0), f.c)
  else
    ((a : Int) + (if f.c = true ∨ a > 0x99 then 0x60 else 0) + (if f.h = true ∨ a % 16 > 9 then 0x06 else 0),
      f.c || decide (a > 0x99))

/-- Rules R300 to R319 in unbounded integers: the result and the bit shifted out. -/
def shiftValue (op : ShiftOp) (v carry : Nat) : Nat × Nat :=
  match op with
  | .rlc => (v * 2 % 256 + v / 128, v / 128)
  | .rrc => (v / 2 + v % 2 * 128, v % 2)
  | .rl => (v * 2 % 256 + carry, v / 128)
  | .rr => (v / 2 + carry * 128, v % 2)
  | .sla => (v * 2 % 256, v / 128)
  | .sra => (v / 2 + v / 128 * 128, v % 2)
  | .swap => (v % 16 * 16 + v / 16, 0)
  | .srl => (v / 2, v % 2)

/-- The flags of a CB rotate, shift or SWAP that gives `r` (R304). -/
def shiftedFlags (r : Nat × Nat) : Flags := { z := decide (r.1 = 0), n := false, h := false, c := decide (r.2 = 1) }

/-- Bit `b` of `v`. -/
def bitOf (v : Byte) (b : Fin 8) : Nat := v.toNat / 2 ^ b.val % 2

/-- Two decimal digits as a packed byte. -/
def bcd (x : Nat) : Byte := BitVec.ofNat 8 (x / 10 % 10 * 16 + x % 10)

end Sys2Proof.Machine
end

