-- ==== Sys2Proof/Certificates/Slice0/Obligations.lean ====
section
/-! DEFINITION. The statements for the provers. Each instruction statement names its instruction as the one of a form of the
encoding (`Form.instr`), writes out the bytes of its rule, and is about the state after the fetch, in which PC points past the
instruction (R26). Executing an instruction leaves the Timer and the PPU alone: they tick after it (R400). -/

section

open Sys2Proof Sys2Proof.Machine

/-! ### Encoding -/

/-- Every instruction, with every operand at every value, is what the decoder reads from its encoding, whatever bytes follow
(R111 to R128). -/
def Obligations.EncodeThenDecode : Prop :=
  ∀ (i : Instr) (rest : List Byte), i.wf = true → decode (encode i ++ rest) = .ok (i, rest)

/-- What the decoder reads is a well-formed instruction and its encoding is the bytes it was read from: no two byte strings are
one instruction (R111 to R128). -/
def Obligations.DecodeThenEncode : Prop :=
  ∀ (bytes rest : List Byte) (i : Instr), decode bytes = .ok (i, rest) → i.wf = true ∧ encode i ++ rest = bytes

/-- R110, R127: the first byte fixes a length of 1, 2 or 3, and every first byte with enough bytes after it decodes. -/
def Obligations.LengthFromFirstByte : Prop :=
  ∀ (op : Byte), 1 ≤ instrLength op ∧ instrLength op ≤ 3 ∧
    ∀ (params rest : List Byte), params.length + 1 = instrLength op →
      ∃ i, decode (op :: params ++ rest) = .ok (i, rest) ∧ (encode i).length = instrLength op

/-- Words written out from the encoding lines of the rules decode to the instructions they stand for (one or more of each
family). -/
def Obligations.SpecWordsDecode : Prop :=
  decode [0x78] = .ok (.ld_A_B, []) ∧ decode [0x3E, 0x42] = .ok (.ld_A_n 0x42, []) ∧
  decode [0xFA, 0x00, 0xC3] = .ok (.ld_A_at_nn 0xC300, []) ∧ decode [0x2A] = .ok (.ld_A_atHLi, []) ∧
  decode [0x31, 0xFE, 0xFF] = .ok (.ld_SP_nn 0xFFFE, []) ∧ decode [0xF5] = .ok (.push_AF, []) ∧
  decode [0x80] = .ok (.add_A_B, []) ∧ decode [0xDE, 0x2A] = .ok (.sbc_A_n 0x2A, []) ∧
  decode [0x35] = .ok (.dec_atHL, []) ∧ decode [0x39] = .ok (.add_HL_SP, []) ∧
  decode [0xCB, 0x7C] = .ok (.bit_7_H, []) ∧ decode [0xCB, 0x36] = .ok (.swap_atHL, []) ∧
  decode [0x20, 0xF0] = .ok (.jr_NZ_e 0xF0, []) ∧ decode [0xCD, 0x00, 0x20] = .ok (.call_nn 0x2000, []) ∧
  decode [0xEF] = .ok (.rst_28, []) ∧ decode [0xD9] = .ok (.reti, []) ∧
  decode [0x10, 0x00] = .ok (.stop 0x00, []) ∧ decode [0xD3] = .ok (.illegal_D3, [])

/-! ### The step -/

/-- A step runs the decoded instruction: where the CPU is neither halted nor stopped after the step's wake checks and interrupt
query, and the bytes at PC are the encoding of a well-formed instruction, the step is that instruction's execution with PC
moved past its bytes, then the EI-delay update, then the Timer and the PPU ticked by the cycles spent (R112, R400, R401). -/
def Obligations.StepRunsDecodedInstruction : Prop :=
  ∀ (s : State) (i : Instr), s.fault = none → (cpuPrelude s).idle = false → i.wf = true →
    (∀ k (h : k < (encode i).length),
      memRead ((cpuPrelude s).cpu.pc + BitVec.ofNat 16 k) (cpuPrelude s) = (encode i)[k]) →
    step s =
      mapNext (fun t => ppuTick t.cycles (timerTick t.cycles t))
        (mapNext (updateState s.irq.imeSched)
          (exec i ((cpuPrelude s).setPc ((cpuPrelude s).cpu.pc + BitVec.ofNat 16 (encode i).length))))

/-- R30, R401, R515: a CPU that the wake checks leave halted or stopped fetches nothing and dispatches nothing; the step costs
4 cycles, no register changes, and the Timer and the PPU still tick. -/
def Obligations.IdleStepCostsFourCycles : Prop :=
  ∀ (s : State), s.fault = none → (wakeChecks s).idle = true →
    step s = .next (ppuTick 4 (timerTick 4 (updateState s.irq.imeSched { wakeChecks s with cycles := 4 }))) ∧
    ∀ t, step s = .next t → t.cpu = (wakeChecks s).cpu ∧ ∀ r, t.reg r = s.reg r

/-- R402: what a step's cycle count can be. With a dispatch the 5 cycles are the parameter INT_DISPATCH_CYCLES at the source's
value (log 13). -/
def Obligations.StepCycleCounts : Prop :=
  ∀ (s t : State), step s = .next t →
    ((cpuPrelude s).idle = true ∧ t.cycles = 4) ∨
    ((cpuPrelude s).idle = false ∧
      ∃ n, n ∈ [4, 8, 12, 16, 20, 24] ∧
        (∃ u, exec (fetchedInstr (cpuPrelude s)) { (cpuPrelude s).setPc (fetchedPc (cpuPrelude s)) with cycles := 0 } = .next u ∧
          u.cycles = n) ∧
        t.cycles = if (wakeChecks s).cpu.stopped = false ∧ (readyInterrupt (wakeChecks s)).isSome then 5 + n else n)

/-- R356, R470: an illegal opcode faults whenever it is executed; the fault records the opcode and the address it was fetched
from; the fetch's PC + 1 and what the step did before it stay, and nothing else changes; and a machine with a fault makes no
step. (`cycles := 0` is the model's way of saying that no cycle count is returned, log 5 and 7.) -/
def Obligations.IllegalOpcodeFaults : Prop :=
  (∀ (k : IllegalOp) (s : State),
    encode (Form.illegal k).instr = [k.code] ∧
    exec (Form.illegal k).instr s =
      .fault (.illegalOpcode { kind := .illegalOpcode, opcode := k.code, address := s.cpu.pc - 1 }
        { s with fault := some { kind := .illegalOpcode, opcode := k.code, address := s.cpu.pc - 1 }, cycles := 0 })) ∧
  (∀ (k : IllegalOp), k.code ∈ ([0xD3, 0xDB, 0xDD, 0xE3, 0xE4, 0xEB, 0xEC, 0xED, 0xF4, 0xFC, 0xFD] : List Byte)) ∧
  (∀ (s : State) (k : IllegalOp), s.fault = none → (cpuPrelude s).idle = false →
    memRead (cpuPrelude s).cpu.pc (cpuPrelude s) = k.code →
    step s =
      .fault (.illegalOpcode { kind := .illegalOpcode, opcode := k.code, address := (cpuPrelude s).cpu.pc }
        { (cpuPrelude s).setPc ((cpuPrelude s).cpu.pc + 1) with
          fault := some { kind := .illegalOpcode, opcode := k.code, address := (cpuPrelude s).cpu.pc }, cycles := 0 })) ∧
  (∀ (s : State) (r : FaultRecord), s.fault = some r → step s = .fault (.noStep r))

/-- R424, R425: every instruction but the illegal opcodes completes in every state, whatever the mode, the operands and the
addresses; and no instruction is refused. -/
def Obligations.EveryInstructionCompletes : Prop :=
  ∀ (i : Instr) (s : State), (∀ k, i ≠ (Form.illegal k).instr) → ∃ t, exec i s = .next t

/-- R415, R416: the wake checks. HALT ends on a pending enabled request, whatever IME is; with IME the same step dispatches,
without it the same step goes on with the instruction after HALT. STOP ends on IF bit 4, whatever IE and IME are, and DIV
runs again; while stopped nothing is dispatched. -/
def Obligations.WakeChecks : Prop :=
  (∀ (s : State), s.cpu.halted = true → s.cpu.stopped = false →
    (s.pending ≠ 0 → s.irq.ime = false →
      cpuPrelude s = { s with cpu := { s.cpu with halted := false }, cycles := 0 }) ∧
    (s.pending ≠ 0 → s.irq.ime = true → ∃ k, leastSource s.pending = some k ∧
      cpuPrelude s = dispatch k { s with cpu := { s.cpu with halted := false }, cycles := 0 }) ∧
    (s.pending = 0 → cpuPrelude s = { s with cycles := 0 })) ∧
  (∀ (s : State), s.cpu.stopped = true → s.cpu.halted = false →
    (s.irq.iflag.getLsbD 4 = true →
      cpuPrelude s = serviceInterrupts
        { s with cpu := { s.cpu with stopped := false }, timer := { s.timer with divFrozen := false }, cycles := 0 }) ∧
    (s.irq.iflag.getLsbD 4 = false → cpuPrelude s = { s with cycles := 0 }))

/-- R411: the query answers the lowest set bit of IE and IF, only while IME is 1. -/
def Obligations.ReadyInterruptIsLowestBit : Prop :=
  ∀ (s : State),
    (s.irq.ime = false → readyInterrupt s = none) ∧
    (s.irq.ie.extractLsb' 0 5 &&& s.irq.iflag = 0 → readyInterrupt s = none) ∧
    (s.irq.ime = true → s.irq.ie.extractLsb' 0 5 &&& s.irq.iflag ≠ 0 →
      ∃ k : IrqSource, readyInterrupt s = some k ∧ s.irq.ie.getLsbD k.bit = true ∧ s.irq.iflag.getLsbD k.bit = true ∧
        ∀ j : IrqSource, j.bit < k.bit → ¬(s.irq.ie.getLsbD j.bit = true ∧ s.irq.iflag.getLsbD j.bit = true))

/-- R412, R413: interrupt entry saves PC on the stack, goes to the vector, disables interrupts, clears the serviced request
after the push and ends HALT; no other register and no other state but the pushed bytes and the cycle count changes. -/
def Obligations.DispatchEntersHandler : Prop :=
  ∀ (k : IrqSource) (s : State),
    (dispatch k s).cpu =
      { s.cpu with sp := s.cpu.sp - 2, pc := BitVec.ofNat 16 (0x40 + 8 * k.bit), halted := false } ∧
    (dispatch k s).cycles = s.cycles + 5 ∧
    (dispatch k s).irq.ime = false ∧ (dispatch k s).irq.imeSched = false ∧
    (dispatch k s).irq.iflag.getLsbD k.bit = false ∧
    (∃ u, StoresTwo (s.cpu.sp - 1) s.cpu.pc.hi (s.cpu.sp - 2) s.cpu.pc.lo s u ∧
      dispatch k s =
        { u with
          cpu := (dispatch k s).cpu, cycles := (dispatch k s).cycles,
          irq := { u.irq with ime := false, imeSched := false, iflag := (dispatch k s).irq.iflag } } ∧
      ∀ j, j ≠ k.bit → (dispatch k s).irq.iflag.getLsbD j = u.irq.iflag.getLsbD j) ∧
    (s.cpu.stopped = false → readyInterrupt s = some k → serviceInterrupts s = dispatch k s)

/-- R417, R418, R419: EI's own step leaves IME as it was, unless an EI of the step before takes effect; the step after EI sets
IME at its end unless it runs DI; DI leaves IME and the schedule clear. -/
def Obligations.EiDelayIsOneInstruction : Prop :=
  ∀ (s : State), s.fault = none → (cpuPrelude s).idle = false →
    (fetchedInstr (cpuPrelude s) = .ei → ∃ t, step s = .next t ∧
      t.irq.ime = ((cpuPrelude s).irq.ime || s.irq.imeSched) ∧ t.irq.imeSched = !s.irq.imeSched) ∧
    (fetchedInstr (cpuPrelude s) = .di → ∃ t, step s = .next t ∧ t.irq.ime = false ∧ t.irq.imeSched = false) ∧
    (s.irq.imeSched = true → s.irq.ime = false → fetchedInstr (cpuPrelude s) ≠ .di →
      (∀ k, fetchedInstr (cpuPrelude s) ≠ (Form.illegal k).instr) → ∃ t, step s = .next t ∧
        t.irq.ime = true ∧ t.irq.imeSched = false)

/-- R33: only EI, DI, RETI and interrupt dispatch change IME and its schedule. An instruction other than the three leaves both;
over a step, IME rises only by an EI of an earlier step, an EI under a set schedule, or RETI, and falls only by DI or a
dispatch. -/
def Obligations.OnlyEiDiRetiDispatchChangeIme : Prop :=
  (∀ (i : Instr) (s t : State), i ≠ .ei → i ≠ .di → i ≠ .reti → exec i s = .next t →
    t.irq.ime = s.irq.ime ∧ t.irq.imeSched = s.irq.imeSched) ∧
  (∀ (s t : State), step s = .next t → s.irq.ime = false → t.irq.ime = true →
    s.irq.imeSched = true ∨ ((cpuPrelude s).idle = false ∧ fetchedInstr (cpuPrelude s) = .reti)) ∧
  (∀ (s t : State), step s = .next t → s.irq.ime = true → t.irq.ime = false →
    (readyInterrupt (wakeChecks s)).isSome = true ∨
      ((cpuPrelude s).idle = false ∧ fetchedInstr (cpuPrelude s) = .di))

/-! ### The whole machine -/

/-- Every step keeps the invariant: F's low nibble, the frozen DIV, the accumulators' and the dots' ranges, the scanline and
its mode, the canonical form of every array and the cartridge's bank registers (R24, R35, R41, R42, R43, R47, R85). -/
def Obligations.StepKeepsInvariant : Prop := ∀ (s t : State), s.Inv → step s = .next t → t.Inv

/-- The machine right after reset meets the invariant. -/
def Obligations.ResetMeetsInvariant : Prop := State.reset.Inv

/-- A machine started with a loaded cartridge and any draws of the open bytes meets the invariant (R47, R78, R500, R501). -/
def Obligations.LoadedMachineMeetsInvariant : Prop :=
  ∀ (image : List Byte) (draw : Memory) (c : Cartridge) (p : PowerOn),
    loadCartridge image draw = .ok c →
    Memory.ok (fun k => decide (k < c.ramBanks * 0x2000)) draw = true →
    p.cartridge = some c →
    Memory.ok (fun k => decide (k < 0x2000)) p.vram = true → Memory.ok plainKey p.ioPlain = true →
    Memory.ok fallbackKey p.ram = true → (State.powerOn p).Inv

/-- R501: the reset values, with the register file and the bytes the spec leaves open as arguments. -/
def Obligations.ResetValues : Prop :=
  (∀ (p : PowerOn),
    ((State.powerOn p).cpu.halted = false ∧ (State.powerOn p).cpu.stopped = false) ∧
    ((State.powerOn p).irq.ime = false ∧ (State.powerOn p).irq.imeSched = false) ∧
    (memRead 0xFF0F (State.powerOn p) = 0xE1 ∧ memRead 0xFFFF (State.powerOn p) = 0x00) ∧
    (memRead 0xFF04 (State.powerOn p) = 0xAB ∧ memRead 0xFF05 (State.powerOn p) = 0x00 ∧
      memRead 0xFF06 (State.powerOn p) = 0x00 ∧ memRead 0xFF07 (State.powerOn p) = 0xF8) ∧
    ((State.powerOn p).timer.divAcc = 0 ∧ (State.powerOn p).timer.timaAcc = 0 ∧
      (State.powerOn p).timer.divFrozen = false) ∧
    (memRead 0xFF40 (State.powerOn p) = 0x91 ∧ memRead 0xFF41 (State.powerOn p) = 0x86 ∧
      memRead 0xFF42 (State.powerOn p) = 0x00 ∧ memRead 0xFF43 (State.powerOn p) = 0x00 ∧
      memRead 0xFF44 (State.powerOn p) = 0x00 ∧ memRead 0xFF45 (State.powerOn p) = 0x00 ∧
      memRead 0xFF46 (State.powerOn p) = 0xFF ∧ memRead 0xFF47 (State.powerOn p) = 0xFC ∧
      memRead 0xFF48 (State.powerOn p) = p.obp0 ∧ memRead 0xFF49 (State.powerOn p) = p.obp1 ∧
      memRead 0xFF4A (State.powerOn p) = 0x00 ∧ memRead 0xFF4B (State.powerOn p) = 0x00) ∧
    ((State.powerOn p).ppu.mode = .oamSearch ∧ (State.powerOn p).ppu.dots = 0 ∧
      (State.powerOn p).ppu.coincidence = true) ∧
    (∀ row x, (State.powerOn p).fbPixel row x = 0) ∧
    (memRead 0xFF01 (State.powerOn p) = 0x00 ∧ memRead 0xFF02 (State.powerOn p) = 0x7E ∧
      (State.powerOn p).serialLog = []) ∧
    (memRead 0xFF00 (State.powerOn p) = 0xCF ∧ (State.powerOn p).joypad.input = 0xF) ∧
    ((State.powerOn p).vram = p.vram ∧ (State.powerOn p).ioPlain = p.ioPlain ∧ (State.powerOn p).ram = p.ram) ∧
    (∀ c, p.cartridge = some c →
      (State.powerOn p).cartridge = some { c with ramEnable := false, bank1 := 1, bank2 := 0, bankMode := false }) ∧
    (State.powerOn p).fault = none) ∧
  (State.reset.cpu.a = 0x01 ∧ State.reset.getF = 0xB0 ∧ State.reset.cpu.b = 0x00 ∧ State.reset.cpu.c = 0x13 ∧
    State.reset.cpu.d = 0x00 ∧ State.reset.cpu.e = 0xD8 ∧ State.reset.cpu.h = 0x01 ∧ State.reset.cpu.l = 0x4D ∧
    State.reset.cpu.sp = 0xFFFE ∧ State.reset.cpu.pc = 0x0100)

/-- R24: no instruction can make F's low nibble non-zero. -/
def Obligations.FlagsLowNibbleStaysZero : Prop :=
  ∀ (i : Instr) (s t : State), s.cpu.f &&& 0x0F = 0 → exec i s = .next t → t.cpu.f &&& 0x0F = 0

/-- R47, R87, R502: no step changes a ROM byte, the mapper or the RAM size, or inserts or removes the cartridge. -/
def Obligations.RomNeverChanges : Prop :=
  ∀ (s t : State), step s = .next t →
    t.cartridge.map (fun c => (c.mapper, c.romShift, c.rom, c.ramBanks)) =
      s.cartridge.map (fun c => (c.mapper, c.romShift, c.rom, c.ramBanks))

/-- R43, R433, R512: no instruction changes what only the Timer's and the PPU's ticks may change: the framebuffer, the
scanline, the mode and its dots, the coincidence flag, TIMA's accumulator. -/
def Obligations.InstructionsLeaveTickState : Prop :=
  ∀ (i : Instr) (s t : State), exec i s = .next t →
    t.ppu.framebuffer = s.ppu.framebuffer ∧ t.ppu.ly = s.ppu.ly ∧ t.ppu.mode = s.ppu.mode ∧ t.ppu.dots = s.ppu.dots ∧
    t.ppu.coincidence = s.ppu.coincidence ∧ t.timer.timaAcc = s.timer.timaAcc ∧ t.joypad.input = s.joypad.input

/-! ### The Bus -/

/-- R71, R74, R75, R76, R91, R95: a byte that stores whole reads back as last written; a write leaves every other address
alone, but for a write to the MBC registers, which leaves every address outside the cartridge's windows; and no write
changes a CPU register, IME, its schedule or the fault. -/
def Obligations.BusReadAfterWrite : Prop :=
  ∀ (s : State) (a : Word) (v : Byte),
    (s.Canonical → storesWhole a = true → memRead a (memWrite a v s) = v) ∧
    (∀ b, b ≠ a → (0x8000 ≤ a.toNat ∨ cartridgeWindow b = false) → memRead b (memWrite a v s) = memRead b s) ∧
    (s.Canonical → (memWrite a v s).Canonical) ∧
    (memWrite a v s).cpu = s.cpu ∧ (memWrite a v s).irq.ime = s.irq.ime ∧
    (memWrite a v s).irq.imeSched = s.irq.imeSched ∧ (memWrite a v s).fault = s.fault

/-- R75's table, both columns, with R460's hook on SC. -/
def Obligations.IoRegisterTable : Prop :=
  ∀ (s : State) (v : Byte),
    (memRead 0xFF00 s = 0xC0 ||| (s.joypad.select.zeroExtend 8 <<< 4) ||| s.joypad.input.zeroExtend 8 ∧
      memWrite 0xFF00 v s = { s with joypad := { s.joypad with select := v.extractLsb' 4 2 } }) ∧
    (memRead 0xFF01 s = s.serial.sb ∧ memWrite 0xFF01 v s = { s with serial := { s.serial with sb := v } }) ∧
    (memRead 0xFF02 s = s.serial.sc ∧
      memWrite 0xFF02 v s =
        { s with serial := { s.serial with
            sc := v, log := if v = 0x81 then s.serial.log ++ [s.serial.sb] else s.serial.log } }) ∧
    (memRead 0xFF04 s = s.timer.div ∧ memWrite 0xFF04 v s = { s with timer := { s.timer with div := 0, divAcc := 0 } }) ∧
    (memRead 0xFF05 s = s.timer.tima ∧ memWrite 0xFF05 v s = { s with timer := { s.timer with tima := v } }) ∧
    (memRead 0xFF06 s = s.timer.tma ∧ memWrite 0xFF06 v s = { s with timer := { s.timer with tma := v } }) ∧
    (memRead 0xFF07 s = 0xF8 ||| s.timer.tac.zeroExtend 8 ∧
      memWrite 0xFF07 v s = { s with timer := { s.timer with tac := v.extractLsb' 0 3 } }) ∧
    (memRead 0xFF0F s = 0xE0 ||| s.irq.iflag.zeroExtend 8 ∧
      memWrite 0xFF0F v s = { s with irq := { s.irq with iflag := v.extractLsb' 0 5 } }) ∧
    (memRead 0xFF40 s = s.ppu.lcdc ∧ memWrite 0xFF40 v s = { s with ppu := { s.ppu with lcdc := v } }) ∧
    (memRead 0xFF41 s =
        0x80 ||| (s.ppu.statEn.zeroExtend 8 <<< 3) ||| (if s.ppu.coincidence then 4 else 0) |||
          s.ppu.mode.bits.zeroExtend 8 ∧
      memWrite 0xFF41 v s = { s with ppu := { s.ppu with statEn := v.extractLsb' 3 4 } }) ∧
    (memRead 0xFF42 s = s.ppu.scy ∧ memWrite 0xFF42 v s = { s with ppu := { s.ppu with scy := v } }) ∧
    (memRead 0xFF43 s = s.ppu.scx ∧ memWrite 0xFF43 v s = { s with ppu := { s.ppu with scx := v } }) ∧
    (memRead 0xFF44 s = s.ppu.ly ∧ memWrite 0xFF44 v s = s) ∧
    (memRead 0xFF45 s = s.ppu.lyc ∧ memWrite 0xFF45 v s = { s with ppu := { s.ppu with lyc := v } }) ∧
    (memRead 0xFF46 s = s.ppu.dma ∧ memWrite 0xFF46 v s = { s with ppu := { s.ppu with dma := v } }) ∧
    (memRead 0xFF47 s = s.ppu.bgp ∧ memWrite 0xFF47 v s = { s with ppu := { s.ppu with bgp := v } }) ∧
    (memRead 0xFF48 s = s.ppu.obp0 ∧ memWrite 0xFF48 v s = { s with ppu := { s.ppu with obp0 := v } }) ∧
    (memRead 0xFF49 s = s.ppu.obp1 ∧ memWrite 0xFF49 v s = { s with ppu := { s.ppu with obp1 := v } }) ∧
    (memRead 0xFF4A s = s.ppu.wy ∧ memWrite 0xFF4A v s = { s with ppu := { s.ppu with wy := v } }) ∧
    (memRead 0xFF4B s = s.ppu.wx ∧ memWrite 0xFF4B v s = { s with ppu := { s.ppu with wx := v } }) ∧
    (memRead 0xFFFF s = s.irq.ie ∧ memWrite 0xFFFF v s = { s with irq := { s.irq with ie := v } }) ∧
    (∀ a : Word, 0xFF00 ≤ a.toNat → a.toNat ≤ 0xFF7F →
      a ∉ ([0xFF00, 0xFF01, 0xFF02, 0xFF04, 0xFF05, 0xFF06, 0xFF07, 0xFF0F, 0xFF40, 0xFF41, 0xFF42, 0xFF43, 0xFF44, 0xFF45,
        0xFF46, 0xFF47, 0xFF48, 0xFF49, 0xFF4A, 0xFF4B] : List Word) →
      memRead a s = s.ioPlain.read a.toNat ∧ memWrite a v s = { s with ioPlain := s.ioPlain.write a.toNat v })

/-- R80 to R83, R87: a write to 0x0000 to 0x7FFF of an MBC1 cartridge writes the register of its range and nothing else. -/
def Obligations.Mbc1RegisterWrites : Prop :=
  ∀ (s : State) (c : Cartridge) (a : Word) (v : Byte), s.cartridge = some c → c.mapper = .mbc1 →
    (a.toNat < 0x2000 →
      memWrite a v s = { s with cartridge := some { c with ramEnable := decide (v.toNat % 16 = 0xA) } }) ∧
    (0x2000 ≤ a.toNat → a.toNat < 0x4000 →
      memWrite a v s = { s with cartridge := some { c with
        bank1 := BitVec.ofNat 5 (if v.toNat % 32 &&& (2 * 2 ^ c.romShift - 1) = 0 then 1
          else v.toNat % 32 &&& (2 * 2 ^ c.romShift - 1)) } }) ∧
    (0x4000 ≤ a.toNat → a.toNat < 0x6000 →
      memWrite a v s = { s with cartridge := some { c with bank2 := BitVec.ofNat 2 (v.toNat % 4) } }) ∧
    (0x6000 ≤ a.toNat → a.toNat < 0x8000 →
      memWrite a v s = { s with cartridge := some { c with bankMode := decide (v.toNat % 2 = 1) } })

/-- R84 to R86: what a read of an MBC1 cartridge returns, and what a write to its RAM does. -/
def Obligations.Mbc1BankedAccess : Prop :=
  ∀ (s : State) (c : Cartridge) (a : Word) (v : Byte), s.cartridge = some c → c.mapper = .mbc1 →
    (a.toNat < 0x4000 → memRead a s = c.rom.read a.toNat) ∧
    (0x4000 ≤ a.toNat → a.toNat < 0x8000 → c.bankMode = false →
      memRead a s = c.rom.read
        (((c.bank2.toNat * 32 + c.bank1.toNat) % (2 * 2 ^ c.romShift)) * 0x4000 + (a.toNat - 0x4000))) ∧
    (0x4000 ≤ a.toNat → a.toNat < 0x8000 → c.bankMode = true →
      memRead a s = c.rom.read (c.bank1.toNat * 0x4000 + (a.toNat - 0x4000))) ∧
    (0xA000 ≤ a.toNat → a.toNat < 0xC000 → c.ramEnable = true → 0 < c.ramBanks →
      memRead a s = c.ram.read
        (((if c.bankMode then c.bank2.toNat else 0) % c.ramBanks) * 0x2000 + (a.toNat - 0xA000)) ∧
      memWrite a v s = { s with cartridge := some { c with
        ram := c.ram.write (((if c.bankMode then c.bank2.toNat else 0) % c.ramBanks) * 0x2000 + (a.toNat - 0xA000)) v } } ∧
      (c.ram.wf = true → memRead a (memWrite a v s) = v)) ∧
    (0xA000 ≤ a.toNat → a.toNat < 0xC000 → (c.ramEnable = false ∨ c.ramBanks = 0) →
      memRead a s = 0xFF ∧ memWrite a v s = s)

/-- R73, R79: an absent cartridge reads 0xFF and drops writes; a ROM-only one reads its image and ignores writes. -/
def Obligations.UnbankedAndAbsentCartridge : Prop :=
  ∀ (s : State) (a : Word) (v : Byte), cartridgeWindow a = true →
    (s.cartridge = none → memRead a s = 0xFF ∧ memWrite a v s = s) ∧
    (∀ c, s.cartridge = some c → c.mapper = .romOnly →
      (a.toNat < 0x8000 → memRead a s = c.rom.read a.toNat) ∧ (0xA000 ≤ a.toNat → memRead a s = 0xFF) ∧
      memWrite a v s = s)

/-- R78: a load reads the three header bytes; it is refused for an unsupported type, naming it, or for a size other than the
declared one, naming both, and then inserts nothing; otherwise the image, the mapper and the RAM size are the header's.
Which error an image with both faults names is the model's choice (log 19) and is not stated. -/
def Obligations.CartridgeLoad : Prop :=
  ∀ (image : List Byte) (draw : Memory), 0x150 ≤ image.length →
    (image.getD 0x147 0 ∉ ([0x00, 0x01, 0x02, 0x03] : List Byte) →
      image.length = 0x8000 * 2 ^ (image.getD 0x148 0).toNat →
      loadCartridge image draw = .error (.unsupportedType (image.getD 0x147 0))) ∧
    (image.getD 0x147 0 ∈ ([0x00, 0x01, 0x02, 0x03] : List Byte) →
      image.length ≠ 0x8000 * 2 ^ (image.getD 0x148 0).toNat →
      loadCartridge image draw = .error (.sizeMismatch (0x8000 * 2 ^ (image.getD 0x148 0).toNat) image.length)) ∧
    ((∃ e, loadCartridge image draw = .error e) → (bootWith image draw).cartridge = none) ∧
    (image.getD 0x147 0 ∈ ([0x00, 0x01, 0x02, 0x03] : List Byte) →
      image.length = 0x8000 * 2 ^ (image.getD 0x148 0).toNat →
      ∃ c, loadCartridge image draw = .ok c ∧
        c.mapper = (if image.getD 0x147 0 = 0x00 then .romOnly else .mbc1) ∧
        c.romShift = (image.getD 0x148 0).toNat ∧
        c.ramBanks = (if image.getD 0x149 0 = 0x02 then 1 else if image.getD 0x149 0 = 0x03 then 4
          else if image.getD 0x149 0 = 0x04 then 16 else if image.getD 0x149 0 = 0x05 then 8 else 0) ∧
        (∀ k, k < image.length → c.rom.read k = image.getD k 0) ∧ c.ram = draw)

/-! ### The Timer -/

/-- R430, R433, R434: DIV gains one for each 256 cycles accumulated, wrapping; while frozen it and its accumulator keep their
values. -/
def Obligations.DivCountsEvery256Cycles : Prop :=
  ∀ (c : Nat) (s : State),
    (s.timer.divFrozen = true →
      (timerTick c s).timer.div = s.timer.div ∧ (timerTick c s).timer.divAcc = s.timer.divAcc) ∧
    (s.timer.divFrozen = false →
      ∃ n, s.timer.divAcc + c = n * 256 + (timerTick c s).timer.divAcc ∧ (timerTick c s).timer.divAcc < 256 ∧
        (timerTick c s).timer.div = s.timer.div + BitVec.ofNat 8 n)

/-- R431, R432: TIMA gains one for each period accumulated while TAC bit 2 is set; at 0xFF it is reloaded from TMA and the Timer
request is set in the same event; nothing else of the machine changes but DIV and its accumulator (R430). A write to TAC leaves
the accumulator. -/
def Obligations.TimaCountsAndReloads : Prop :=
  ∀ (c : Nat) (s : State),
    (s.timer.tac.getLsbD 2 = true → ¬(s.cpu.stopped = true ∧ s.timer.stopFreezesTima = true) →
      ∃ n, s.timer.timaAcc + c =
          n * ([1024, 16, 64, 256].getD (s.timer.tac.toNat % 4) 0) + (timerTick c s).timer.timaAcc ∧
        (timerTick c s).timer.timaAcc < [1024, 16, 64, 256].getD (s.timer.tac.toNat % 4) 0 ∧
        ((fun x : Byte × Bool => if x.1 = 0xFF then (s.timer.tma, true) else (x.1 + 1, x.2))^[n])
            (s.timer.tima, s.irq.iflag.getLsbD 2) =
          ((timerTick c s).timer.tima, (timerTick c s).irq.iflag.getLsbD 2)) ∧
    (¬(s.timer.tac.getLsbD 2 = true ∧ ¬(s.cpu.stopped = true ∧ s.timer.stopFreezesTima = true)) →
      (timerTick c s).timer.timaAcc = s.timer.timaAcc ∧ (timerTick c s).timer.tima = s.timer.tima ∧
      (timerTick c s).irq = s.irq) ∧
    (∀ j, j ≠ 2 → (timerTick c s).irq.iflag.getLsbD j = s.irq.iflag.getLsbD j) ∧
    (∀ v, (memWrite 0xFF07 v s).timer = { s.timer with tac := v.extractLsb' 0 3 }) ∧
    timerTick c s =
      { s with
        timer := { s.timer with
          div := (timerTick c s).timer.div, divAcc := (timerTick c s).timer.divAcc,
          tima := (timerTick c s).timer.tima, timaAcc := (timerTick c s).timer.timaAcc },
        irq := { s.irq with iflag := (timerTick c s).irq.iflag } }

/-! ### The PPU -/

/-- R440, R450: with the LCD off a tick does nothing; with it on the tick adds its dots, and while a mode's budget is used up it
is taken off and the mode's transition is made. -/
def Obligations.PpuTickRunsTransitions : Prop :=
  (dotBudget .oamSearch = 80 ∧ dotBudget .transfer = 172 ∧ dotBudget .hblank = 204 ∧ dotBudget .vblank = 456) ∧
  ∀ (c : Nat) (s : State),
    (s.ppu.lcdc.getLsbD 7 = false → ppuTick c s = s) ∧
    (s.ppu.lcdc.getLsbD 7 = true → s.ppu.dots + c < dotBudget s.ppu.mode →
      ppuTick c s = { s with ppu := { s.ppu with dots := s.ppu.dots + c } }) ∧
    (s.ppu.lcdc.getLsbD 7 = true → dotBudget s.ppu.mode ≤ s.ppu.dots + c →
      ppuTick c s =
        ppuTick 0 (ppuTransition { s with ppu := { s.ppu with dots := s.ppu.dots + c - dotBudget s.ppu.mode } })) ∧
    (s.ppu.lcdc.getLsbD 7 = true → (ppuTick c s).ppu.dots < dotBudget (ppuTick c s).ppu.mode)

/-- R441 to R445, R449: the budgets of the four modes and their transitions, with the requests each makes. `s.readStat` is STAT
as a read returns it (R40). -/
def Obligations.PpuTransitions : Prop :=
  (dotBudget .oamSearch = 80 ∧ dotBudget .transfer = 172 ∧ dotBudget .hblank = 204 ∧ dotBudget .vblank = 456) ∧
  ∀ (s : State),
    (s.ppu.mode = .oamSearch → ppuTransition s = renderLine s.ppu.ly.toNat { s with ppu := { s.ppu with mode := .transfer } }) ∧
    (s.ppu.mode = .transfer →
      ppuTransition s =
        { s with
          ppu := { s.ppu with mode := .hblank },
          irq := { s.irq with iflag := s.irq.iflag ||| (if s.readStat.getLsbD 3 then 2 else 0) } }) ∧
    (s.ppu.mode = .hblank → (s.ppu.ly + 1).toNat ≤ 143 →
      ppuTransition s =
        { s with
          ppu := { s.ppu with
            ly := s.ppu.ly + 1, mode := .oamSearch, coincidence := decide (s.ppu.ly + 1 = s.ppu.lyc) },
          irq := { s.irq with
            iflag := s.irq.iflag ||| (if s.ppu.ly + 1 = s.ppu.lyc ∧ s.readStat.getLsbD 6 = true then 2 else 0) |||
              (if s.readStat.getLsbD 5 then 2 else 0) } }) ∧
    (s.ppu.mode = .hblank → 143 < (s.ppu.ly + 1).toNat →
      ppuTransition s =
        { s with
          ppu := { s.ppu with
            ly := s.ppu.ly + 1, mode := .vblank, coincidence := decide (s.ppu.ly + 1 = s.ppu.lyc) },
          irq := { s.irq with
            iflag := s.irq.iflag ||| (if s.ppu.ly + 1 = s.ppu.lyc ∧ s.readStat.getLsbD 6 = true then 2 else 0) ||| 1 |||
              (if s.readStat.getLsbD 4 then 2 else 0) } }) ∧
    (s.ppu.mode = .vblank → s.ppu.ly = 153 →
      ppuTransition s =
        { s with
          ppu := { s.ppu with ly := 0, mode := .oamSearch, coincidence := decide (0 = s.ppu.lyc) },
          irq := { s.irq with
            iflag := s.irq.iflag ||| (if 0 = s.ppu.lyc ∧ s.readStat.getLsbD 6 = true then 2 else 0) |||
              (if s.readStat.getLsbD 5 then 2 else 0) } }) ∧
    (s.ppu.mode = .vblank → s.ppu.ly ≠ 153 →
      ppuTransition s =
        { s with
          ppu := { s.ppu with ly := s.ppu.ly + 1, coincidence := decide (s.ppu.ly + 1 = s.ppu.lyc) },
          irq := { s.irq with
            iflag := s.irq.iflag ||| (if s.ppu.ly + 1 = s.ppu.lyc ∧ s.readStat.getLsbD 6 = true then 2 else 0) } })

/-- R446, R447, R448: the pixels of a rendered line, read from VideoRAM as the CPU would read it; every other row and all other
state stay. -/
def Obligations.RenderedLine : Prop :=
  ∀ (s : State) (ly : Nat), ly < 144 → Sparse.wf blankRow s.ppu.framebuffer = true →
    (∀ x, x < 256 →
      ∃ idx addr lo hi,
        idx = memRead (BitVec.ofNat 16
          ((if s.ppu.lcdc.getLsbD 3 then 0x9C00 else 0x9800) + (ly / 8) * 32 + x / 8)) s ∧
        (addr : Int) = (if s.ppu.lcdc.getLsbD 4 then 0x8000 + (idx.toNat : Int) * 16 else 0x9000 + idx.toInt * 16) +
          ((ly % 8) * 2 : Nat) ∧
        lo = memRead (BitVec.ofInt 16 addr) s ∧ hi = memRead (BitVec.ofInt 16 (addr + 1)) s ∧
        ((renderLine ly s).fbPixel ly x).toNat =
          2 * (hi.getLsbD (7 - x % 8)).toNat + (lo.getLsbD (7 - x % 8)).toNat) ∧
    (renderLine ly s).fbRow ly = (List.range 256).map ((renderLine ly s).fbPixel ly) ∧
    (∀ row, row ≠ ly → (renderLine ly s).fbRow row = s.fbRow row) ∧
    renderLine ly s = { s with ppu := { s.ppu with framebuffer := (renderLine ly s).ppu.framebuffer } }

/-- R450: a frame. From the start of line 0 with the LCD on, a visible line takes 456 dots; for the first 144 * 456 dots the
PPU is not in VBlank and does not request it, then it is in VBlank for ten lines, and after 70,224 dots the next frame
begins: VBlank has been entered exactly once. -/
def Obligations.FrameTakes70224Dots : Prop :=
  ∀ (s : State), s.ppu.lcdc.getLsbD 7 = true → s.ppu.mode = .oamSearch → s.ppu.dots = 0 → s.ppu.ly = 0 →
    (∀ c, c < 65664 →
      (ppuTick c s).ppu.mode ≠ .vblank ∧ (ppuTick c s).ppu.ly = BitVec.ofNat 8 (c / 456) ∧
      (ppuTick c s).irq.iflag.getLsbD 0 = s.irq.iflag.getLsbD 0) ∧
    (∀ c, 65664 ≤ c → c < 70224 →
      (ppuTick c s).ppu.mode = .vblank ∧ (ppuTick c s).ppu.ly = BitVec.ofNat 8 (c / 456) ∧
      (ppuTick c s).irq.iflag.getLsbD 0 = true) ∧
    ((ppuTick 70224 s).ppu.mode = .oamSearch ∧ (ppuTick 70224 s).ppu.dots = 0 ∧ (ppuTick 70224 s).ppu.ly = 0 ∧
      (ppuTick 70224 s).irq.iflag.getLsbD 0 = true)

/-! ### The host -/

/-- R461, R46: a joypad event sets the input a read of P1 returns, requests the Joypad interrupt when a bit goes from 1 to 0,
and changes nothing else; that request ends STOP at the next step's wake checks (R416). -/
def Obligations.JoypadEventRequestsOnPress : Prop :=
  ∀ (s : State) (v : BitVec 4),
    memRead 0xFF00 (joypadEvent v s) = 0xC0 ||| (s.joypad.select.zeroExtend 8 <<< 4) ||| v.zeroExtend 8 ∧
    joypadEvent v s =
      { s with
        joypad := { s.joypad with input := v },
        irq := { s.irq with iflag :=
          if ∃ k, k < 4 ∧ s.joypad.input.getLsbD k = true ∧ v.getLsbD k = false then s.irq.iflag ||| 0x10 else s.irq.iflag } } ∧
    ((∃ k, k < 4 ∧ s.joypad.input.getLsbD k = true ∧ v.getLsbD k = false) →
      (wakeChecks (joypadEvent v s)).cpu.stopped = false)

/-! ### 8-bit loads -/

/-- R200, R201, R202: LD r,r'; LD r,n; LD r,(HL). The read of the last uses the old HL. -/
def Obligations.RegisterLoads : Prop :=
  ∀ (dst src : Reg8) (n : Byte) (s : State),
    Runs (Form.ldRegReg dst src).instr [0b01#2 ++ dst.code ++ src.code] 4 s (LoadsReg dst (s.reg src) s) ∧
    Runs (Form.ldRegImm dst n).instr [0b00#2 ++ dst.code ++ 0b110#3, n] 8 s (LoadsReg dst n s) ∧
    Runs (Form.ldRegHl dst).instr [0b01#2 ++ dst.code ++ 0b110#3] 8 s (LoadsReg dst (memRead s.hl s) s)

/-- R205, R206, R209, R211, R213, R215, R217: the loads of A; the last two then step HL, which wraps. -/
def Obligations.AccumulatorLoads : Prop :=
  ∀ (n : Byte) (nn : Word) (s : State),
    Runs .ld_A_atBC [0x0A] 8 s (LoadsReg .a (memRead s.bc s) s) ∧
    Runs .ld_A_atDE [0x1A] 8 s (LoadsReg .a (memRead s.de s) s) ∧
    Runs (.ld_A_at_nn nn) [0xFA, nn.lo, nn.hi] 16 s (LoadsReg .a (memRead nn s) s) ∧
    Runs .ldh_A_atC [0xF2] 8 s (LoadsReg .a (memRead (0xFF00 + s.cpu.c.zeroExtend 16) s) s) ∧
    Runs (.ldh_A_at_n n) [0xF0, n] 12 s (LoadsReg .a (memRead (0xFF00 + n.zeroExtend 16) s) s) ∧
    Runs .ld_A_atHLd [0x3A] 8 s (fun t => t.cpu.a = memRead s.hl s ∧ t.hl = s.hl - 1 ∧ KeepsBut [.a, .h, .l] s t ∧
      KeepsFSpPc s t ∧ KeepsOutside s t) ∧
    Runs .ld_A_atHLi [0x2A] 8 s (fun t => t.cpu.a = memRead s.hl s ∧ t.hl = s.hl + 1 ∧ KeepsBut [.a, .h, .l] s t ∧
      KeepsFSpPc s t ∧ KeepsOutside s t)

/-- R203, R204, R207, R208, R210, R212, R214, R216, R218: the 8-bit stores; the last two then step HL, which wraps. -/
def Obligations.ByteStores : Prop :=
  ∀ (r : Reg8) (n : Byte) (nn : Word) (s : State),
    Runs (Form.ldHlReg r).instr [0b01110#5 ++ r.code] 8 s (fun t => StoresByte s.hl (s.reg r) s t ∧ t.cpu = s.cpu) ∧
    Runs (.ld_atHL_n n) [0x36, n] 12 s (fun t => StoresByte s.hl n s t ∧ t.cpu = s.cpu) ∧
    Runs .ld_atBC_A [0x02] 8 s (fun t => StoresByte s.bc s.cpu.a s t ∧ t.cpu = s.cpu) ∧
    Runs .ld_atDE_A [0x12] 8 s (fun t => StoresByte s.de s.cpu.a s t ∧ t.cpu = s.cpu) ∧
    Runs (.ld_at_nn_A nn) [0xEA, nn.lo, nn.hi] 16 s (fun t => StoresByte nn s.cpu.a s t ∧ t.cpu = s.cpu) ∧
    Runs .ldh_atC_A [0xE2] 8 s
      (fun t => StoresByte (0xFF00 + s.cpu.c.zeroExtend 16) s.cpu.a s t ∧ t.cpu = s.cpu) ∧
    Runs (.ldh_at_n_A n) [0xE0, n] 12 s
      (fun t => StoresByte (0xFF00 + n.zeroExtend 16) s.cpu.a s t ∧ t.cpu = s.cpu) ∧
    Runs .ld_atHLd_A [0x32] 8 s (fun t => StoresByte s.hl s.cpu.a s t ∧ t.hl = s.hl - 1 ∧ KeepsBut [.h, .l] s t ∧
      KeepsFSpPc s t) ∧
    Runs .ld_atHLi_A [0x22] 8 s (fun t => StoresByte s.hl s.cpu.a s t ∧ t.hl = s.hl + 1 ∧ KeepsBut [.h, .l] s t ∧
      KeepsFSpPc s t)

/-! ### 16-bit loads and the stack -/

/-- R230, R232, R292, R293: LD rr,nn; LD SP,HL; INC rr; DEC rr. No flag changes. -/
def Obligations.PairWrites : Prop :=
  ∀ (p : Pair) (nn : Word) (s : State),
    Runs (Form.ldPairImm p nn).instr [0b00#2 ++ p.code ++ 0b0001#4, nn.lo, nn.hi] 12 s (SetsPair p nn s) ∧
    Runs .ld_SP_HL [0xF9] 8 s (SetsPair .sp s.hl s) ∧
    Runs (Form.inc16 p).instr [0b00#2 ++ p.code ++ 0b0011#4] 8 s (SetsPair p (s.pair p + 1) s) ∧
    Runs (Form.dec16 p).instr [0b00#2 ++ p.code ++ 0b1011#4] 8 s (SetsPair p (s.pair p - 1) s)

/-- R231, R233, R236: LD (nn),SP stores the low byte at nn, then the high byte at nn+1; PUSH rr stores the high byte at SP-1,
then the low byte at SP-2. PUSH AF pushes F with its low nibble 0. -/
def Obligations.WordStores : Prop :=
  ∀ (nn : Word) (s : State),
    Runs (.ld_at_nn_SP nn) [0x08, nn.lo, nn.hi] 20 s
      (fun t => StoresTwo nn s.cpu.sp.lo (nn + 1) s.cpu.sp.hi s t ∧ t.cpu = s.cpu) ∧
    Runs .push_BC [0xC5] 16 s (fun t => Pushes (Word.ofBytes s.cpu.b s.cpu.c) s t ∧ t.cpu.pc = s.cpu.pc) ∧
    Runs .push_DE [0xD5] 16 s (fun t => Pushes (Word.ofBytes s.cpu.d s.cpu.e) s t ∧ t.cpu.pc = s.cpu.pc) ∧
    Runs .push_HL [0xE5] 16 s (fun t => Pushes (Word.ofBytes s.cpu.h s.cpu.l) s t ∧ t.cpu.pc = s.cpu.pc) ∧
    Runs .push_AF [0xF5] 16 s (fun t => Pushes (Word.ofBytes s.cpu.a (s.cpu.f &&& 0xF0)) s t ∧ t.cpu.pc = s.cpu.pc)

/-- R234, R237, R238: POP rr. POP AF writes F with its low nibble masked. -/
def Obligations.PopLoadsPair : Prop :=
  ∀ (s : State),
    Runs .pop_BC [0xC1] 12 s (fun t => t.bc = stackTop s ∧ t.cpu.sp = s.cpu.sp + 2 ∧ KeepsBut [.b, .c] s t ∧
      t.cpu.f = s.cpu.f ∧ t.cpu.pc = s.cpu.pc ∧ KeepsOutside s t) ∧
    Runs .pop_DE [0xD1] 12 s (fun t => t.de = stackTop s ∧ t.cpu.sp = s.cpu.sp + 2 ∧ KeepsBut [.d, .e] s t ∧
      t.cpu.f = s.cpu.f ∧ t.cpu.pc = s.cpu.pc ∧ KeepsOutside s t) ∧
    Runs .pop_HL [0xE1] 12 s (fun t => t.hl = stackTop s ∧ t.cpu.sp = s.cpu.sp + 2 ∧ KeepsBut [.h, .l] s t ∧
      t.cpu.f = s.cpu.f ∧ t.cpu.pc = s.cpu.pc ∧ KeepsOutside s t) ∧
    Runs .pop_AF [0xF1] 12 s (fun t => t.cpu.a = (stackTop s).hi ∧ t.cpu.f = (stackTop s).lo &&& 0xF0 ∧
      t.cpu.sp = s.cpu.sp + 2 ∧ KeepsBut [.a] s t ∧ t.cpu.pc = s.cpu.pc ∧ KeepsOutside s t)

/-- R237, R336, R338: a RET after a CALL restores PC and SP to their values before the call, where the two stack bytes store
whole; no register and no flag has changed, and no byte but the two. -/
def Obligations.ReturnUndoesCall : Prop :=
  ∀ (nn : Word) (s : State), s.Canonical → storesWhole (s.cpu.sp - 1) = true → storesWhole (s.cpu.sp - 2) = true →
    ∃ t u, exec (.call_nn nn) s = .next t ∧ exec .ret t = .next u ∧ t.cpu.pc = nn ∧
      u.cpu.pc = s.cpu.pc ∧ u.cpu.sp = s.cpu.sp ∧ u.cpu.f = s.cpu.f ∧ KeepsBut [] s u ∧
      ∀ b, b ≠ s.cpu.sp - 1 → b ≠ s.cpu.sp - 2 → memRead b u = memRead b s

/-! ### 8-bit arithmetic and logic -/

/-- R250, R253 to R258: ADD and ADC from a register, from (HL) and from an immediate. -/
def Obligations.AddAndAddWithCarry : Prop :=
  ∀ (r : Reg8) (n : Byte) (s : State),
    Runs (Form.alu .add (.loc (.reg r))).instr [0b10000#5 ++ r.code] 4 s (AddsToA (s.reg r) false s) ∧
    Runs .add_A_atHL [0x86] 8 s (AddsToA (memRead s.hl s) false s) ∧
    Runs (.add_A_n n) [0xC6, n] 8 s (AddsToA n false s) ∧
    Runs (Form.alu .adc (.loc (.reg r))).instr [0b10001#5 ++ r.code] 4 s (AddsToA (s.reg r) (s.cpu.f.getLsbD 4) s) ∧
    Runs .adc_A_atHL [0x8E] 8 s (AddsToA (memRead s.hl s) (s.cpu.f.getLsbD 4) s) ∧
    Runs (.adc_A_n n) [0xCE, n] 8 s (AddsToA n (s.cpu.f.getLsbD 4) s)

/-- R251, R259 to R264, R274 to R276: SUB, SBC and CP; CP keeps only the flags. -/
def Obligations.SubtractAndCompare : Prop :=
  ∀ (r : Reg8) (n : Byte) (s : State),
    Runs (Form.alu .sub (.loc (.reg r))).instr [0b10010#5 ++ r.code] 4 s (SubtractsFromA (s.reg r) false s) ∧
    Runs .sub_atHL [0x96] 8 s (SubtractsFromA (memRead s.hl s) false s) ∧
    Runs (.sub_n n) [0xD6, n] 8 s (SubtractsFromA n false s) ∧
    Runs (Form.alu .sbc (.loc (.reg r))).instr [0b10011#5 ++ r.code] 4 s
      (SubtractsFromA (s.reg r) (s.cpu.f.getLsbD 4) s) ∧
    Runs .sbc_A_atHL [0x9E] 8 s (SubtractsFromA (memRead s.hl s) (s.cpu.f.getLsbD 4) s) ∧
    Runs (.sbc_A_n n) [0xDE, n] 8 s (SubtractsFromA n (s.cpu.f.getLsbD 4) s) ∧
    Runs (Form.alu .cp (.loc (.reg r))).instr [0b10111#5 ++ r.code] 4 s
      (WritesFlags (differenceFlags s.cpu.a.toNat (s.reg r).toNat 0) s) ∧
    Runs .cp_atHL [0xBE] 8 s (WritesFlags (differenceFlags s.cpu.a.toNat (memRead s.hl s).toNat 0) s) ∧
    Runs (.cp_n n) [0xFE, n] 8 s (WritesFlags (differenceFlags s.cpu.a.toNat n.toNat 0) s)

/-- R252, R265 to R273: AND, XOR and OR. -/
def Obligations.LogicOperations : Prop :=
  ∀ (r : Reg8) (n : Byte) (s : State),
    Runs (Form.alu .and (.loc (.reg r))).instr [0b10100#5 ++ r.code] 4 s
      (WritesReg .a (s.cpu.a &&& s.reg r) ⟨decide (s.cpu.a &&& s.reg r = 0), false, true, false⟩ s) ∧
    Runs .and_atHL [0xA6] 8 s
      (WritesReg .a (s.cpu.a &&& memRead s.hl s) ⟨decide (s.cpu.a &&& memRead s.hl s = 0), false, true, false⟩ s) ∧
    Runs (.and_n n) [0xE6, n] 8 s (WritesReg .a (s.cpu.a &&& n) ⟨decide (s.cpu.a &&& n = 0), false, true, false⟩ s) ∧
    Runs (Form.alu .xor (.loc (.reg r))).instr [0b10101#5 ++ r.code] 4 s
      (WritesReg .a (s.cpu.a ^^^ s.reg r) ⟨decide (s.cpu.a ^^^ s.reg r = 0), false, false, false⟩ s) ∧
    Runs .xor_atHL [0xAE] 8 s
      (WritesReg .a (s.cpu.a ^^^ memRead s.hl s) ⟨decide (s.cpu.a ^^^ memRead s.hl s = 0), false, false, false⟩ s) ∧
    Runs (.xor_n n) [0xEE, n] 8 s (WritesReg .a (s.cpu.a ^^^ n) ⟨decide (s.cpu.a ^^^ n = 0), false, false, false⟩ s) ∧
    Runs (Form.alu .or (.loc (.reg r))).instr [0b10110#5 ++ r.code] 4 s
      (WritesReg .a (s.cpu.a ||| s.reg r) ⟨decide (s.cpu.a ||| s.reg r = 0), false, false, false⟩ s) ∧
    Runs .or_atHL [0xB6] 8 s
      (WritesReg .a (s.cpu.a ||| memRead s.hl s) ⟨decide (s.cpu.a ||| memRead s.hl s = 0), false, false, false⟩ s) ∧
    Runs (.or_n n) [0xF6, n] 8 s (WritesReg .a (s.cpu.a ||| n) ⟨decide (s.cpu.a ||| n = 0), false, false, false⟩ s)

/-- R277 to R280: INC and DEC of a register and of the byte at HL; C is unchanged. -/
def Obligations.IncrementAndDecrement : Prop :=
  ∀ (r : Reg8) (s : State),
    Runs (Form.inc8 (.reg r)).instr [0b00#2 ++ r.code ++ 0b100#3] 4 s
      (WritesReg r (s.reg r + 1)
        ⟨decide (s.reg r = 0xFF), false, decide ((s.reg r).toNat % 16 = 15), s.cpu.f.getLsbD 4⟩ s) ∧
    Runs .inc_atHL [0x34] 12 s
      (RewritesAtHl (memRead s.hl s + 1)
        ⟨decide (memRead s.hl s = 0xFF), false, decide ((memRead s.hl s).toNat % 16 = 15), s.cpu.f.getLsbD 4⟩ s) ∧
    Runs (Form.dec8 (.reg r)).instr [0b00#2 ++ r.code ++ 0b101#3] 4 s
      (WritesReg r (s.reg r - 1)
        ⟨decide (s.reg r = 0x01), true, decide ((s.reg r).toNat % 16 = 0), s.cpu.f.getLsbD 4⟩ s) ∧
    Runs .dec_atHL [0x35] 12 s
      (RewritesAtHl (memRead s.hl s - 1)
        ⟨decide (memRead s.hl s = 0x01), true, decide ((memRead s.hl s).toNat % 16 = 0), s.cpu.f.getLsbD 4⟩ s)

/-- R281 to R284: DAA, CPL, SCF and CCF. -/
def Obligations.AdjustAndComplement : Prop :=
  ∀ (s : State),
    Runs .daa [0x27] 4 s
      (WritesReg .a (BitVec.ofInt 8 (daaValue s.cpu.a.toNat s.flags).1)
        ⟨decide ((daaValue s.cpu.a.toNat s.flags).1 % 256 = 0), s.flags.n, false, (daaValue s.cpu.a.toNat s.flags).2⟩ s) ∧
    Runs .cpl [0x2F] 4 s
      (WritesReg .a (BitVec.ofNat 8 (255 - s.cpu.a.toNat)) ⟨s.cpu.f.getLsbD 7, true, true, s.cpu.f.getLsbD 4⟩ s) ∧
    Runs .scf [0x37] 4 s (WritesFlags ⟨s.cpu.f.getLsbD 7, false, false, true⟩ s) ∧
    Runs .ccf [0x3F] 4 s (WritesFlags ⟨s.cpu.f.getLsbD 7, false, false, !s.cpu.f.getLsbD 4⟩ s)

/-- What DAA is for (R281, "decimal-adjust A after a BCD addition or subtraction"): after ADD or SUB of two packed two-digit
numbers it leaves the packed sum or difference modulo 100, and C the decimal carry or borrow. -/
def Obligations.DaaGivesDecimalSums : Prop :=
  ∀ (s : State) (x y : Nat), x < 100 → y < 100 → s.cpu.a = bcd x → s.cpu.b = bcd y →
    (∃ t u, exec .add_A_B s = .next t ∧ exec .daa t = .next u ∧
      u.cpu.a = bcd ((x + y) % 100) ∧ u.flags.c = decide (100 ≤ x + y)) ∧
    (∃ t u, exec .sub_B s = .next t ∧ exec .daa t = .next u ∧
      u.cpu.a = bcd ((100 + x - y) % 100) ∧ u.flags.c = decide (x < y))

/-- R251: subtracting what was added, with the same carry, gives back the first operand. -/
def Obligations.AluRoundTrip : Prop := ∀ (a b : Byte) (c : Bool), (sub8 (add8 a b c).1 b c).1 = a

/-! ### 16-bit arithmetic -/

/-- R290, R291, R294, R295: ADD HL,rr; ADD SP,e; LD HL,SP+e. -/
def Obligations.WordArithmetic : Prop :=
  ∀ (p : Pair) (e : Byte) (s : State),
    Runs (Form.addHl p).instr [0b00#2 ++ p.code ++ 0b1001#4] 8 s (fun t =>
      t.hl = BitVec.ofNat 16 (s.hl.toNat + (s.pair p).toNat) ∧
      HasFlags ⟨s.cpu.f.getLsbD 7, false, decide (s.hl.toNat % 4096 + (s.pair p).toNat % 4096 > 0x0FFF),
        decide (s.hl.toNat + (s.pair p).toNat > 0xFFFF)⟩ t ∧
      KeepsBut [.h, .l] s t ∧ KeepsSpPc s t ∧ KeepsOutside s t) ∧
    Runs (.add_SP_e e) [0xE8, e] 16 s (fun t =>
      t.cpu.sp = BitVec.ofInt 16 (s.cpu.sp.toNat + e.toInt) ∧
      HasFlags ⟨false, false, decide (s.cpu.sp.toNat % 16 + e.toNat % 16 > 0x0F),
        decide (s.cpu.sp.toNat % 256 + e.toNat > 0xFF)⟩ t ∧
      KeepsBut [] s t ∧ t.cpu.pc = s.cpu.pc ∧ KeepsOutside s t) ∧
    Runs (.ld_HL_SPe e) [0xF8, e] 12 s (fun t =>
      t.hl = BitVec.ofInt 16 (s.cpu.sp.toNat + e.toInt) ∧
      HasFlags ⟨false, false, decide (s.cpu.sp.toNat % 16 + e.toNat % 16 > 0x0F),
        decide (s.cpu.sp.toNat % 256 + e.toNat > 0xFF)⟩ t ∧
      KeepsBut [.h, .l] s t ∧ KeepsSpPc s t ∧ KeepsOutside s t)

/-! ### Rotates, shifts and bit operations -/

/-- R300 to R303: RLCA, RRCA, RLA, RRA. Z, N and H are 0. -/
def Obligations.AccumulatorRotates : Prop :=
  ∀ (s : State) (cy : Nat), cy = (s.cpu.f.getLsbD 4).toNat →
    Runs .rlca [0x07] 4 s (WritesReg .a (BitVec.ofNat 8 (shiftValue .rlc s.cpu.a.toNat cy).1)
      ⟨false, false, false, s.cpu.a.getLsbD 7⟩ s) ∧
    Runs .rrca [0x0F] 4 s (WritesReg .a (BitVec.ofNat 8 (shiftValue .rrc s.cpu.a.toNat cy).1)
      ⟨false, false, false, s.cpu.a.getLsbD 0⟩ s) ∧
    Runs .rla [0x17] 4 s (WritesReg .a (BitVec.ofNat 8 (shiftValue .rl s.cpu.a.toNat cy).1)
      ⟨false, false, false, s.cpu.a.getLsbD 7⟩ s) ∧
    Runs .rra [0x1F] 4 s (WritesReg .a (BitVec.ofNat 8 (shiftValue .rr s.cpu.a.toNat cy).1)
      ⟨false, false, false, s.cpu.a.getLsbD 0⟩ s)

/-- R305, R307, R309, R311, R313, R315, R317, R319: the CB rotates, shifts and SWAP of a register. -/
def Obligations.RegisterShifts : Prop :=
  ∀ (op : ShiftOp) (r : Reg8) (s : State) (res : Nat × Nat),
    res = shiftValue op (s.reg r).toNat (s.cpu.f.getLsbD 4).toNat →
    Runs (Form.shift op (.reg r)).instr [0xCB, 0b00#2 ++ op.code ++ r.code] 8 s
      (WritesReg r (BitVec.ofNat 8 res.1) (shiftedFlags res) s)

/-- R306, R308, R310, R312, R314, R316, R318, R320: the CB rotates, shifts and SWAP of the byte at HL. -/
def Obligations.MemoryShifts : Prop :=
  ∀ (op : ShiftOp) (s : State) (res : Nat × Nat),
    res = shiftValue op (memRead s.hl s).toNat (s.cpu.f.getLsbD 4).toNat →
    Runs (Form.shift op .atHL).instr [0xCB, 0b00#2 ++ op.code ++ 0b110#3] 16 s
      (RewritesAtHl (BitVec.ofNat 8 res.1) (shiftedFlags res) s)

/-- R321, R322: BIT of a register and of the byte at HL; nothing is written back. -/
def Obligations.BitTests : Prop :=
  ∀ (b : Fin 8) (r : Reg8) (s : State),
    Runs (Form.bit b (.reg r)).instr [0xCB, 0b01#2 ++ BitVec.ofNat 3 b.val ++ r.code] 8 s
      (WritesFlags ⟨decide (bitOf (s.reg r) b = 0), false, true, s.cpu.f.getLsbD 4⟩ s) ∧
    Runs (Form.bit b .atHL).instr [0xCB, 0b01#2 ++ BitVec.ofNat 3 b.val ++ 0b110#3] 16 s
      (WritesFlags ⟨decide (bitOf (memRead s.hl s) b = 0), false, true, s.cpu.f.getLsbD 4⟩ s)

/-- R323 to R326: RES and SET; no flag changes, and the byte at HL is written even when the bit had its value already. -/
def Obligations.BitResetsAndSets : Prop :=
  ∀ (b : Fin 8) (r : Reg8) (s : State),
    Runs (Form.res b (.reg r)).instr [0xCB, 0b10#2 ++ BitVec.ofNat 3 b.val ++ r.code] 8 s
      (LoadsReg r (BitVec.ofNat 8 ((s.reg r).toNat - bitOf (s.reg r) b * 2 ^ b.val)) s) ∧
    Runs (Form.res b .atHL).instr [0xCB, 0b10#2 ++ BitVec.ofNat 3 b.val ++ 0b110#3] 16 s
      (fun t => StoresByte s.hl
        (BitVec.ofNat 8 ((memRead s.hl s).toNat - bitOf (memRead s.hl s) b * 2 ^ b.val)) s t ∧ t.cpu = s.cpu) ∧
    Runs (Form.set b (.reg r)).instr [0xCB, 0b11#2 ++ BitVec.ofNat 3 b.val ++ r.code] 8 s
      (LoadsReg r (BitVec.ofNat 8 ((s.reg r).toNat + (1 - bitOf (s.reg r) b) * 2 ^ b.val)) s) ∧
    Runs (Form.set b .atHL).instr [0xCB, 0b11#2 ++ BitVec.ofNat 3 b.val ++ 0b110#3] 16 s
      (fun t => StoresByte s.hl
        (BitVec.ofNat 8 ((memRead s.hl s).toNat + (1 - bitOf (memRead s.hl s) b) * 2 ^ b.val)) s t ∧ t.cpu = s.cpu)

/-! ### Control transfer -/

/-- R330 to R335: the jumps. A conditional one always moves past its bytes (PC in `s` is PC_next) and costs the taken or the
not-taken count. -/
def Obligations.Jumps : Prop :=
  ∀ (cc : Cond) (nn : Word) (e : Byte) (s : State),
    Runs (.jp_nn nn) [0xC3, nn.lo, nn.hi] 16 s (JumpsTo nn s) ∧
    (condTrue cc s →
      Runs (Form.jpCond cc nn).instr [0b110#3 ++ cc.code ++ 0b010#3, nn.lo, nn.hi] 16 s (JumpsTo nn s)) ∧
    (¬condTrue cc s →
      Runs (Form.jpCond cc nn).instr [0b110#3 ++ cc.code ++ 0b010#3, nn.lo, nn.hi] 12 s (JumpsTo s.cpu.pc s)) ∧
    Runs .jp_HL [0xE9] 4 s (JumpsTo s.hl s) ∧
    Runs (.jr_e e) [0x18, e] 12 s (JumpsTo (BitVec.ofInt 16 (s.cpu.pc.toNat + e.toInt)) s) ∧
    (condTrue cc s →
      Runs (Form.jrCond cc e).instr [0b001#3 ++ cc.code ++ 0b000#3, e] 12 s
        (JumpsTo (BitVec.ofInt 16 (s.cpu.pc.toNat + e.toInt)) s)) ∧
    (¬condTrue cc s →
      Runs (Form.jrCond cc e).instr [0b001#3 ++ cc.code ++ 0b000#3, e] 8 s (JumpsTo s.cpu.pc s))

/-- R336, R337, R340: CALL, CALL cc and RST push PC_next and jump; a CALL not taken changes nothing. -/
def Obligations.Calls : Prop :=
  ∀ (cc : Cond) (k : Fin 8) (nn : Word) (s : State),
    Runs (.call_nn nn) [0xCD, nn.lo, nn.hi] 24 s (fun t => Pushes s.cpu.pc s t ∧ t.cpu.pc = nn) ∧
    (condTrue cc s →
      Runs (Form.callCond cc nn).instr [0b110#3 ++ cc.code ++ 0b100#3, nn.lo, nn.hi] 24 s
        (fun t => Pushes s.cpu.pc s t ∧ t.cpu.pc = nn)) ∧
    (¬condTrue cc s →
      Runs (Form.callCond cc nn).instr [0b110#3 ++ cc.code ++ 0b100#3, nn.lo, nn.hi] 12 s (JumpsTo s.cpu.pc s)) ∧
    Runs (Form.rst k).instr [0b11#2 ++ BitVec.ofNat 3 k.val ++ 0b111#3] 16 s
      (fun t => Pushes s.cpu.pc s t ∧ t.cpu.pc = BitVec.ofNat 16 (k.val * 8))

/-- R338, R339, R341: RET, RET cc and RETI pop PC; a RET not taken changes nothing; RETI also sets IME at once and clears the
schedule. -/
def Obligations.Returns : Prop :=
  ∀ (cc : Cond) (s : State),
    Runs .ret [0xC9] 16 s (ReturnsFrom s) ∧
    (condTrue cc s → Runs (Form.retCond cc).instr [0b110#3 ++ cc.code ++ 0b000#3] 20 s (ReturnsFrom s)) ∧
    (¬condTrue cc s → Runs (Form.retCond cc).instr [0b110#3 ++ cc.code ++ 0b000#3] 8 s (JumpsTo s.cpu.pc s)) ∧
    Runs .reti [0xD9] 16 s (fun t =>
      t.cpu.pc = stackTop s ∧ t.cpu.sp = s.cpu.sp + 2 ∧ KeepsBut [] s t ∧ t.cpu.f = s.cpu.f ∧
      KeepsOutside { s with irq := { s.irq with ime := true, imeSched := false } } t)

/-! ### System instructions -/

/-- R350, R353, R354: NOP, DI and EI, with their whole effect. -/
def Obligations.NopDiEi : Prop :=
  ∀ (s : State),
    Runs .nop [0x00] 4 s (fun t => t = { s with cycles := t.cycles }) ∧
    Runs .di [0xF3] 4 s (fun t => t = { s with irq := { s.irq with ime := false, imeSched := false }, cycles := t.cycles }) ∧
    Runs .ei [0xFB] 4 s (fun t => t = { s with irq := { s.irq with imeSched := true }, cycles := t.cycles })

/-- R351, R352: HALT sets `halted`; STOP sets `stopped`, resets DIV's accumulator and freezes DIV, which keeps its value. -/
def Obligations.HaltAndStop : Prop :=
  ∀ (ignored : Byte) (s : State),
    Runs .halt [0x76] 4 s (fun t => t = { s with cpu := { s.cpu with halted := true }, cycles := t.cycles }) ∧
    Runs (.stop ignored) [0x10, ignored] 4 s (fun t => t =
      { s with
        cpu := { s.cpu with stopped := true }, timer := { s.timer with divAcc := 0, divFrozen := true },
        cycles := t.cycles })

/-- R355: PREFIX CB executes the CB-page instruction its second byte selects by the fields of R121, which is what the decoder
makes of the two bytes. -/
def Obligations.PrefixCbRunsSelected : Prop :=
  ∀ (cb : Byte) (rest : List Byte) (s : State),
    encode (.prefix_CB cb) = [0xCB, cb] ∧
    ∃ i t, decode (0xCB :: cb :: rest) = .ok (i, rest) ∧ exec (.prefix_CB cb) s = .next t ∧ exec i s = .next t ∧
      (∀ op l, cb = 0b00#2 ++ ShiftOp.code op ++ Loc.code l → i = (Form.shift op l).instr) ∧
      (∀ (b : Fin 8) l, cb = 0b01#2 ++ BitVec.ofNat 3 b.val ++ Loc.code l → i = (Form.bit b l).instr) ∧
      (∀ (b : Fin 8) l, cb = 0b10#2 ++ BitVec.ofNat 3 b.val ++ Loc.code l → i = (Form.res b l).instr) ∧
      (∀ (b : Fin 8) l, cb = 0b11#2 ++ BitVec.ofNat 3 b.val ++ Loc.code l → i = (Form.set b l).instr)

end
end

