-- ==== Sys2Proof/Laws/Memory.lean ====
section
/-! SUPPORT. The laws of the sparse arrays: reads after writes, and that a write keeps the canonical form. -/

namespace Sys2Proof.Machine

section
variable {α : Type}

@[simp] theorem Sparse.get_nil (d : α) (k : Nat) : Sparse.get d [] k = d := rfl

theorem Sparse.get_cons (d : α) (c : Nat × α) (m : Sparse α) (k : Nat) :
    Sparse.get d (c :: m) k = if c.1 = k then c.2 else Sparse.get d m k := rfl

variable [DecidableEq α]

theorem Sparse.wfFrom_cons_iff (d : α) (lo : Option Nat) (c : Nat × α) (m : Sparse α) :
    Sparse.wfFrom d lo (c :: m) = true ↔
      (∀ b, lo = some b → b < c.1) ∧ c.2 ≠ d ∧ Sparse.wfFrom d (some c.1) m = true := by
  cases lo <;> simp [Sparse.wfFrom, and_assoc]

/-- A tighter lower bound implies a looser one. -/
theorem Sparse.wfFrom_weaken (d : α) {lo lo' : Option Nat} {m : Sparse α}
    (hlo : ∀ b, lo' = some b → ∃ b', lo = some b' ∧ b ≤ b') (h : Sparse.wfFrom d lo m = true) :
    Sparse.wfFrom d lo' m = true := by
  cases m with
  | nil => cases lo' <;> rfl
  | cons c m =>
    rw [Sparse.wfFrom_cons_iff] at h ⊢
    refine ⟨fun b hb => ?_, h.2⟩
    obtain ⟨b', hb', hle⟩ := hlo b hb
    exact Nat.lt_of_le_of_lt hle (h.1 b' hb')

/-- Below its lower bound a canonical array lists nothing. -/
theorem Sparse.get_below (d : α) {b : Nat} {m : Sparse α} (h : Sparse.wfFrom d (some b) m = true) {k : Nat}
    (hk : k ≤ b) : Sparse.get d m k = d := by
  induction m generalizing b with
  | nil => rfl
  | cons c m ih =>
    rw [Sparse.wfFrom_cons_iff] at h
    have hb := h.1 b rfl
    rw [Sparse.get_cons, if_neg (by omega)]
    exact ih h.2.2 (by omega)

/-- A write leaves every other key alone. -/
theorem Sparse.get_set_other (d : α) (m : Sparse α) {k k' : Nat} (v : α) (h : k' ≠ k) :
    Sparse.get d (Sparse.set d m k v) k' = Sparse.get d m k' := by
  induction m with
  | nil => by_cases hv : v = d <;> simp [Sparse.set, Sparse.get_cons, hv, Ne.symm h]
  | cons c m ih =>
    obtain ⟨a, w⟩ := c
    simp only [Sparse.set]
    split
    · split <;> simp [Sparse.get_cons, Ne.symm h]
    · split
      · subst_vars
        split <;> simp [Sparse.get_cons, Ne.symm h]
      · simp [Sparse.get_cons, ih]

/-- A read after a write to the same key gives the value written. -/
theorem Sparse.get_set_same (d : α) {lo : Option Nat} {m : Sparse α} (h : Sparse.wfFrom d lo m = true) (k : Nat)
    (v : α) : Sparse.get d (Sparse.set d m k v) k = v := by
  induction m generalizing lo with
  | nil => by_cases hv : v = d <;> simp [Sparse.set, Sparse.get_cons, hv]
  | cons c m ih =>
    obtain ⟨a, w⟩ := c
    rw [Sparse.wfFrom_cons_iff] at h
    obtain ⟨-, -, hm⟩ := h
    simp only [Sparse.set]
    split
    · rename_i hlt
      split
      · rename_i hv
        rw [Sparse.get_cons, if_neg (by simp; omega), hv]
        exact Sparse.get_below d hm (by simp; omega)
      · simp [Sparse.get_cons]
    · split
      · rename_i heq
        split
        · rename_i hv
          rw [hv]
          exact Sparse.get_below d hm (by simp; omega)
        · simp [Sparse.get_cons]
      · rename_i hne
        rw [Sparse.get_cons, if_neg (by simp; omega)]
        exact ih hm

/-- A write keeps the canonical form. -/
theorem Sparse.wfFrom_set (d : α) {lo : Option Nat} {m : Sparse α} (h : Sparse.wfFrom d lo m = true) (k : Nat) (v : α)
    (hk : ∀ b, lo = some b → b < k) : Sparse.wfFrom d lo (Sparse.set d m k v) = true := by
  induction m generalizing lo with
  | nil =>
    by_cases hv : v = d
    · cases lo <;> simp [Sparse.set, hv, Sparse.wfFrom]
    · simp only [Sparse.set, hv, if_false]
      rw [Sparse.wfFrom_cons_iff]
      exact ⟨hk, hv, rfl⟩
  | cons c m ih =>
    obtain ⟨a, w⟩ := c
    have h' := h
    rw [Sparse.wfFrom_cons_iff] at h
    obtain ⟨hlo, hw, hm⟩ := h
    simp only [Sparse.set]
    split
    · rename_i hlt
      split
      · exact h'
      · rename_i hv
        rw [Sparse.wfFrom_cons_iff]
        refine ⟨hk, hv, ?_⟩
        rw [Sparse.wfFrom_cons_iff]
        exact ⟨fun b hb => by simp at hb; simpa [← hb] using hlt, hw, hm⟩
    · rename_i hge
      split
      · rename_i heq
        split
        · refine Sparse.wfFrom_weaken d (fun b hb => ⟨a, rfl, ?_⟩) hm
          exact Nat.le_of_lt (hlo b hb)
        · rename_i hv
          rw [Sparse.wfFrom_cons_iff]
          subst heq
          exact ⟨hlo, hv, hm⟩
      · rename_i hne
        rw [Sparse.wfFrom_cons_iff]
        exact ⟨hlo, hw, ih hm (fun b hb => by simp at hb; omega)⟩

theorem Sparse.wf_set (d : α) {m : Sparse α} (h : Sparse.wf d m = true) (k : Nat) (v : α) :
    Sparse.wf d (Sparse.set d m k v) = true :=
  Sparse.wfFrom_set d h k v (fun _ hb => by cases hb)

/-- Every cell of an array after a write was there before, or is the one written. -/
theorem Sparse.mem_set (d : α) (m : Sparse α) (k : Nat) (v : α) {c : Nat × α} (h : c ∈ Sparse.set d m k v) :
    c ∈ m ∨ c = (k, v) := by
  induction m with
  | nil =>
    simp only [Sparse.set] at h
    split at h <;> simp_all
  | cons a m ih =>
    obtain ⟨a, w⟩ := a
    simp only [Sparse.set] at h
    split at h
    · split at h
      · exact .inl h
      · rcases List.mem_cons.1 h with h | h
        · exact .inr h
        · exact .inl h
    · split at h
      · split at h
        · exact .inl (List.mem_cons_of_mem _ h)
        · rcases List.mem_cons.1 h with h | h
          · exact .inr h
          · exact .inl (List.mem_cons_of_mem _ h)
      · rcases List.mem_cons.1 h with h | h
        · exact .inl (h ▸ List.mem_cons_self)
        · rcases ih h with h | h
          · exact .inl (List.mem_cons_of_mem _ h)
          · exact .inr h

theorem Sparse.within_set (d : α) (p : Nat → Bool) {m : Sparse α} (h : Sparse.within p m = true) {k : Nat} (v : α)
    (hk : p k = true) : Sparse.within p (Sparse.set d m k v) = true := by
  simp only [Sparse.within, List.all_eq_true] at h ⊢
  intro c hc
  rcases Sparse.mem_set d m k v hc with hc | rfl
  · exact h c hc
  · exact hk

/-- Two canonical arrays that read alike are the same list. -/
theorem Sparse.ext_of_wfFrom (d : α) {lo : Option Nat} {m m' : Sparse α} (h : Sparse.wfFrom d lo m = true)
    (h' : Sparse.wfFrom d lo m' = true) (heq : ∀ k, Sparse.get d m k = Sparse.get d m' k) : m = m' := by
  induction m generalizing lo m' with
  | nil =>
    cases m' with
    | nil => rfl
    | cons c' m' =>
      rw [Sparse.wfFrom_cons_iff] at h'
      have := heq c'.1
      simp only [Sparse.get_nil, Sparse.get_cons, if_true] at this
      exact absurd this.symm h'.2.1
  | cons c m ih =>
    rw [Sparse.wfFrom_cons_iff] at h
    cases m' with
    | nil =>
      have := heq c.1
      simp only [Sparse.get_nil, Sparse.get_cons, if_true] at this
      exact absurd this h.2.1
    | cons c' m' =>
      rw [Sparse.wfFrom_cons_iff] at h'
      have hkey : c.1 = c'.1 := by
        rcases Nat.lt_trichotomy c.1 c'.1 with hlt | heq' | hgt
        · have := heq c.1
          rw [Sparse.get_cons, if_pos rfl, Sparse.get_cons, if_neg (by omega),
            Sparse.get_below d h'.2.2 (by omega)] at this
          exact absurd this h.2.1
        · exact heq'
        · have := heq c'.1
          rw [Sparse.get_cons, if_neg (by omega), Sparse.get_cons, if_pos rfl,
            Sparse.get_below d h.2.2 (by omega)] at this
          exact absurd this.symm h'.2.1
      have hval : c.2 = c'.2 := by
        have := heq c.1
        rwa [Sparse.get_cons, if_pos rfl, Sparse.get_cons, if_pos hkey.symm] at this
      have hrest : m = m' := by
        refine ih h.2.2 (by rw [hkey]; exact h'.2.2) fun k => ?_
        by_cases hk : c.1 = k
        · rw [← hk, Sparse.get_below d h.2.2 (Nat.le_refl _), Sparse.get_below d h'.2.2 (by omega)]
        · have := heq k
          rwa [Sparse.get_cons, if_neg hk, Sparse.get_cons, if_neg (by omega)] at this
      rw [hrest, Prod.ext hkey hval]

/-- The array of a list is canonical and lists only the list's indices. -/
theorem Sparse.wfFrom_ofListFrom (d : α) (l : List α) (k : Nat) (lo : Option Nat) (hlo : ∀ b, lo = some b → b < k) :
    Sparse.wfFrom d lo (Sparse.ofListFrom d k l) = true := by
  induction l generalizing k lo with
  | nil => cases lo <;> rfl
  | cons v l ih =>
    simp only [Sparse.ofListFrom]
    split
    · exact ih (k + 1) lo fun b hb => Nat.lt_succ_of_lt (hlo b hb)
    · rename_i hv
      rw [Sparse.wfFrom_cons_iff]
      exact ⟨hlo, hv, ih (k + 1) (some k) fun b hb => by simp at hb; omega⟩

theorem Sparse.mem_ofListFrom (d : α) (l : List α) (k : Nat) {c : Nat × α} (h : c ∈ Sparse.ofListFrom d k l) :
    k ≤ c.1 ∧ c.1 < k + l.length := by
  induction l generalizing k with
  | nil => simp [Sparse.ofListFrom] at h
  | cons v l ih =>
    simp only [Sparse.ofListFrom] at h
    split at h
    · have := ih (k + 1) h
      simp; omega
    · rcases List.mem_cons.1 h with rfl | h
      · simp
      · have := ih (k + 1) h
        simp; omega

/-- The array of a list reads as the list, and as the default beyond it. -/
theorem Sparse.get_ofListFrom (d : α) (l : List α) (k i : Nat) :
    Sparse.get d (Sparse.ofListFrom d k l) (k + i) = l.getD i d := by
  induction l generalizing k i with
  | nil => simp [Sparse.ofListFrom]
  | cons v l ih =>
    have hbelow : ∀ j, j ≤ k → Sparse.get d (Sparse.ofListFrom d (k + 1) l) j = d := fun j hj =>
      Sparse.get_below d (Sparse.wfFrom_ofListFrom d l (k + 1) (some k) fun b hb => by simp at hb; omega) hj
    simp only [Sparse.ofListFrom]
    cases i with
    | zero =>
      split
      · rename_i hv
        simp [hbelow k (Nat.le_refl k), hv]
      · simp [Sparse.get_cons]
    | succ i =>
      have := ih (k + 1) i
      rw [show k + (i + 1) = k + 1 + i by omega]
      split
      · simpa using this
      · rw [Sparse.get_cons, if_neg (by simp; omega)]
        simpa using this

end

/-! ### The byte arrays -/

theorem Memory.read_write_same {m : Memory} (h : m.wf = true) (k : Nat) (v : Byte) : (m.write k v).read k = v :=
  Sparse.get_set_same Memory.unlisted h k v

theorem Memory.read_write_other (m : Memory) {k k' : Nat} (v : Byte) (h : k' ≠ k) :
    (m.write k v).read k' = m.read k' :=
  Sparse.get_set_other Memory.unlisted m v h

/-- Every memory operation keeps the canonical form. -/
theorem Memory.wf_write {m : Memory} (h : m.wf = true) (k : Nat) (v : Byte) : (m.write k v).wf = true :=
  Sparse.wf_set Memory.unlisted h k v

@[simp] theorem Memory.wf_nil : Memory.wf [] = true := rfl

theorem Memory.wf_ofList (l : List Byte) : (Memory.ofList l).wf = true :=
  Sparse.wfFrom_ofListFrom Memory.unlisted l 0 none fun _ hb => by cases hb

theorem Memory.read_ofList (l : List Byte) (i : Nat) : (Memory.ofList l).read i = l.getD i 0 := by
  have := Sparse.get_ofListFrom Memory.unlisted l 0 i
  rwa [Nat.zero_add] at this

end Sys2Proof.Machine
end

