-- ==== Sys2Proof/Laws/State.lean ====
section
/-! SUPPORT. One lemma per field per update: what each named update writes and what it leaves. -/

namespace Sys2Proof

/-! ### Halves of a 16-bit value (R21) -/

theorem Word.getLsbD_ofBytes (h l : Byte) (i : Nat) :
    (Word.ofBytes h l).getLsbD i = if i < 8 then l.getLsbD i else h.getLsbD (i - 8) := by
  refine (BitVec.getLsbD_append (x := h) (y := l) (i := i)).trans ?_
  by_cases hi : i < 8 <;> simp [hi]

@[simp] theorem Word.hi_ofBytes (h l : Byte) : (Word.ofBytes h l).hi = h := by
  apply BitVec.eq_of_getLsbD_eq
  intro i hi
  simp [Word.hi, Word.getLsbD_ofBytes, hi]

@[simp] theorem Word.lo_ofBytes (h l : Byte) : (Word.ofBytes h l).lo = l := by
  apply BitVec.eq_of_getLsbD_eq
  intro i hi
  simp [Word.lo, Word.getLsbD_ofBytes, hi]

@[simp] theorem Word.ofBytes_hi_lo (w : Word) : Word.ofBytes w.hi w.lo = w := by
  apply BitVec.eq_of_getLsbD_eq
  intro i hi
  rw [Word.getLsbD_ofBytes]
  by_cases h : i < 8
  · simp [h, Word.lo]
  · rw [if_neg h, Word.hi, BitVec.getLsbD_extractLsb', show 8 + (i - 8) = i by omega]
    simp; omega

theorem Word.toNat_ofBytes (h l : Byte) : (Word.ofBytes h l).toNat = h.toNat * 256 + l.toNat := by
  refine (BitVec.toNat_append h l).trans ?_
  rw [Nat.shiftLeft_eq, Nat.mul_comm, ← Nat.two_pow_add_eq_or_of_lt (by exact l.isLt)]

end Sys2Proof

namespace Sys2Proof.Machine

/-! ### setReg -/

@[simp] theorem State.setReg_irq (s : State) (r : Reg8) (v : Byte) : (s.setReg r v).irq = s.irq := by cases r <;> rfl
@[simp] theorem State.setReg_timer (s : State) (r : Reg8) (v : Byte) : (s.setReg r v).timer = s.timer := by cases r <;> rfl
@[simp] theorem State.setReg_ppu (s : State) (r : Reg8) (v : Byte) : (s.setReg r v).ppu = s.ppu := by cases r <;> rfl
@[simp] theorem State.setReg_serial (s : State) (r : Reg8) (v : Byte) : (s.setReg r v).serial = s.serial := by cases r <;> rfl
@[simp] theorem State.setReg_joypad (s : State) (r : Reg8) (v : Byte) : (s.setReg r v).joypad = s.joypad := by cases r <;> rfl
@[simp] theorem State.setReg_vram (s : State) (r : Reg8) (v : Byte) : (s.setReg r v).vram = s.vram := by cases r <;> rfl
@[simp] theorem State.setReg_ioPlain (s : State) (r : Reg8) (v : Byte) : (s.setReg r v).ioPlain = s.ioPlain := by cases r <;> rfl
@[simp] theorem State.setReg_ram (s : State) (r : Reg8) (v : Byte) : (s.setReg r v).ram = s.ram := by cases r <;> rfl
@[simp] theorem State.setReg_cartridge (s : State) (r : Reg8) (v : Byte) : (s.setReg r v).cartridge = s.cartridge := by cases r <;> rfl
@[simp] theorem State.setReg_fault (s : State) (r : Reg8) (v : Byte) : (s.setReg r v).fault = s.fault := by cases r <;> rfl
@[simp] theorem State.setReg_cycles (s : State) (r : Reg8) (v : Byte) : (s.setReg r v).cycles = s.cycles := by cases r <;> rfl
@[simp] theorem State.setReg_cpu_f (s : State) (r : Reg8) (v : Byte) : (s.setReg r v).cpu.f = s.cpu.f := by cases r <;> rfl
@[simp] theorem State.setReg_cpu_sp (s : State) (r : Reg8) (v : Byte) : (s.setReg r v).cpu.sp = s.cpu.sp := by cases r <;> rfl
@[simp] theorem State.setReg_cpu_pc (s : State) (r : Reg8) (v : Byte) : (s.setReg r v).cpu.pc = s.cpu.pc := by cases r <;> rfl
@[simp] theorem State.setReg_cpu_halted (s : State) (r : Reg8) (v : Byte) : (s.setReg r v).cpu.halted = s.cpu.halted := by cases r <;> rfl
@[simp] theorem State.setReg_cpu_stopped (s : State) (r : Reg8) (v : Byte) : (s.setReg r v).cpu.stopped = s.cpu.stopped := by cases r <;> rfl

/-! ### setF -/

@[simp] theorem State.setF_irq (s : State) (v : Byte) : (s.setF v).irq = s.irq := rfl
@[simp] theorem State.setF_timer (s : State) (v : Byte) : (s.setF v).timer = s.timer := rfl
@[simp] theorem State.setF_ppu (s : State) (v : Byte) : (s.setF v).ppu = s.ppu := rfl
@[simp] theorem State.setF_serial (s : State) (v : Byte) : (s.setF v).serial = s.serial := rfl
@[simp] theorem State.setF_joypad (s : State) (v : Byte) : (s.setF v).joypad = s.joypad := rfl
@[simp] theorem State.setF_vram (s : State) (v : Byte) : (s.setF v).vram = s.vram := rfl
@[simp] theorem State.setF_ioPlain (s : State) (v : Byte) : (s.setF v).ioPlain = s.ioPlain := rfl
@[simp] theorem State.setF_ram (s : State) (v : Byte) : (s.setF v).ram = s.ram := rfl
@[simp] theorem State.setF_cartridge (s : State) (v : Byte) : (s.setF v).cartridge = s.cartridge := rfl
@[simp] theorem State.setF_fault (s : State) (v : Byte) : (s.setF v).fault = s.fault := rfl
@[simp] theorem State.setF_cycles (s : State) (v : Byte) : (s.setF v).cycles = s.cycles := rfl
@[simp] theorem State.setF_cpu_a (s : State) (v : Byte) : (s.setF v).cpu.a = s.cpu.a := rfl
@[simp] theorem State.setF_cpu_f (s : State) (v : Byte) : (s.setF v).cpu.f = v &&& 0xF0 := rfl
@[simp] theorem State.setF_cpu_b (s : State) (v : Byte) : (s.setF v).cpu.b = s.cpu.b := rfl
@[simp] theorem State.setF_cpu_c (s : State) (v : Byte) : (s.setF v).cpu.c = s.cpu.c := rfl
@[simp] theorem State.setF_cpu_d (s : State) (v : Byte) : (s.setF v).cpu.d = s.cpu.d := rfl
@[simp] theorem State.setF_cpu_e (s : State) (v : Byte) : (s.setF v).cpu.e = s.cpu.e := rfl
@[simp] theorem State.setF_cpu_h (s : State) (v : Byte) : (s.setF v).cpu.h = s.cpu.h := rfl
@[simp] theorem State.setF_cpu_l (s : State) (v : Byte) : (s.setF v).cpu.l = s.cpu.l := rfl
@[simp] theorem State.setF_cpu_sp (s : State) (v : Byte) : (s.setF v).cpu.sp = s.cpu.sp := rfl
@[simp] theorem State.setF_cpu_pc (s : State) (v : Byte) : (s.setF v).cpu.pc = s.cpu.pc := rfl
@[simp] theorem State.setF_cpu_halted (s : State) (v : Byte) : (s.setF v).cpu.halted = s.cpu.halted := rfl
@[simp] theorem State.setF_cpu_stopped (s : State) (v : Byte) : (s.setF v).cpu.stopped = s.cpu.stopped := rfl

/-! ### setFlags -/

@[simp] theorem State.setFlags_irq (s : State) (g : Flags) : (s.setFlags g).irq = s.irq := rfl
@[simp] theorem State.setFlags_timer (s : State) (g : Flags) : (s.setFlags g).timer = s.timer := rfl
@[simp] theorem State.setFlags_ppu (s : State) (g : Flags) : (s.setFlags g).ppu = s.ppu := rfl
@[simp] theorem State.setFlags_serial (s : State) (g : Flags) : (s.setFlags g).serial = s.serial := rfl
@[simp] theorem State.setFlags_joypad (s : State) (g : Flags) : (s.setFlags g).joypad = s.joypad := rfl
@[simp] theorem State.setFlags_vram (s : State) (g : Flags) : (s.setFlags g).vram = s.vram := rfl
@[simp] theorem State.setFlags_ioPlain (s : State) (g : Flags) : (s.setFlags g).ioPlain = s.ioPlain := rfl
@[simp] theorem State.setFlags_ram (s : State) (g : Flags) : (s.setFlags g).ram = s.ram := rfl
@[simp] theorem State.setFlags_cartridge (s : State) (g : Flags) : (s.setFlags g).cartridge = s.cartridge := rfl
@[simp] theorem State.setFlags_fault (s : State) (g : Flags) : (s.setFlags g).fault = s.fault := rfl
@[simp] theorem State.setFlags_cycles (s : State) (g : Flags) : (s.setFlags g).cycles = s.cycles := rfl
@[simp] theorem State.setFlags_cpu_a (s : State) (g : Flags) : (s.setFlags g).cpu.a = s.cpu.a := rfl
@[simp] theorem State.setFlags_cpu_f (s : State) (g : Flags) : (s.setFlags g).cpu.f = g.toByte &&& 0xF0 := rfl
@[simp] theorem State.setFlags_cpu_b (s : State) (g : Flags) : (s.setFlags g).cpu.b = s.cpu.b := rfl
@[simp] theorem State.setFlags_cpu_c (s : State) (g : Flags) : (s.setFlags g).cpu.c = s.cpu.c := rfl
@[simp] theorem State.setFlags_cpu_d (s : State) (g : Flags) : (s.setFlags g).cpu.d = s.cpu.d := rfl
@[simp] theorem State.setFlags_cpu_e (s : State) (g : Flags) : (s.setFlags g).cpu.e = s.cpu.e := rfl
@[simp] theorem State.setFlags_cpu_h (s : State) (g : Flags) : (s.setFlags g).cpu.h = s.cpu.h := rfl
@[simp] theorem State.setFlags_cpu_l (s : State) (g : Flags) : (s.setFlags g).cpu.l = s.cpu.l := rfl
@[simp] theorem State.setFlags_cpu_sp (s : State) (g : Flags) : (s.setFlags g).cpu.sp = s.cpu.sp := rfl
@[simp] theorem State.setFlags_cpu_pc (s : State) (g : Flags) : (s.setFlags g).cpu.pc = s.cpu.pc := rfl
@[simp] theorem State.setFlags_cpu_halted (s : State) (g : Flags) : (s.setFlags g).cpu.halted = s.cpu.halted := rfl
@[simp] theorem State.setFlags_cpu_stopped (s : State) (g : Flags) : (s.setFlags g).cpu.stopped = s.cpu.stopped := rfl

/-! ### setBc -/

@[simp] theorem State.setBc_irq (s : State) (v : Word) : (s.setBc v).irq = s.irq := rfl
@[simp] theorem State.setBc_timer (s : State) (v : Word) : (s.setBc v).timer = s.timer := rfl
@[simp] theorem State.setBc_ppu (s : State) (v : Word) : (s.setBc v).ppu = s.ppu := rfl
@[simp] theorem State.setBc_serial (s : State) (v : Word) : (s.setBc v).serial = s.serial := rfl
@[simp] theorem State.setBc_joypad (s : State) (v : Word) : (s.setBc v).joypad = s.joypad := rfl
@[simp] theorem State.setBc_vram (s : State) (v : Word) : (s.setBc v).vram = s.vram := rfl
@[simp] theorem State.setBc_ioPlain (s : State) (v : Word) : (s.setBc v).ioPlain = s.ioPlain := rfl
@[simp] theorem State.setBc_ram (s : State) (v : Word) : (s.setBc v).ram = s.ram := rfl
@[simp] theorem State.setBc_cartridge (s : State) (v : Word) : (s.setBc v).cartridge = s.cartridge := rfl
@[simp] theorem State.setBc_fault (s : State) (v : Word) : (s.setBc v).fault = s.fault := rfl
@[simp] theorem State.setBc_cycles (s : State) (v : Word) : (s.setBc v).cycles = s.cycles := rfl
@[simp] theorem State.setBc_cpu_a (s : State) (v : Word) : (s.setBc v).cpu.a = s.cpu.a := rfl
@[simp] theorem State.setBc_cpu_f (s : State) (v : Word) : (s.setBc v).cpu.f = s.cpu.f := rfl
@[simp] theorem State.setBc_cpu_b (s : State) (v : Word) : (s.setBc v).cpu.b = v.hi := rfl
@[simp] theorem State.setBc_cpu_c (s : State) (v : Word) : (s.setBc v).cpu.c = v.lo := rfl
@[simp] theorem State.setBc_cpu_d (s : State) (v : Word) : (s.setBc v).cpu.d = s.cpu.d := rfl
@[simp] theorem State.setBc_cpu_e (s : State) (v : Word) : (s.setBc v).cpu.e = s.cpu.e := rfl
@[simp] theorem State.setBc_cpu_h (s : State) (v : Word) : (s.setBc v).cpu.h = s.cpu.h := rfl
@[simp] theorem State.setBc_cpu_l (s : State) (v : Word) : (s.setBc v).cpu.l = s.cpu.l := rfl
@[simp] theorem State.setBc_cpu_sp (s : State) (v : Word) : (s.setBc v).cpu.sp = s.cpu.sp := rfl
@[simp] theorem State.setBc_cpu_pc (s : State) (v : Word) : (s.setBc v).cpu.pc = s.cpu.pc := rfl
@[simp] theorem State.setBc_cpu_halted (s : State) (v : Word) : (s.setBc v).cpu.halted = s.cpu.halted := rfl
@[simp] theorem State.setBc_cpu_stopped (s : State) (v : Word) : (s.setBc v).cpu.stopped = s.cpu.stopped := rfl

/-! ### setDe -/

@[simp] theorem State.setDe_irq (s : State) (v : Word) : (s.setDe v).irq = s.irq := rfl
@[simp] theorem State.setDe_timer (s : State) (v : Word) : (s.setDe v).timer = s.timer := rfl
@[simp] theorem State.setDe_ppu (s : State) (v : Word) : (s.setDe v).ppu = s.ppu := rfl
@[simp] theorem State.setDe_serial (s : State) (v : Word) : (s.setDe v).serial = s.serial := rfl
@[simp] theorem State.setDe_joypad (s : State) (v : Word) : (s.setDe v).joypad = s.joypad := rfl
@[simp] theorem State.setDe_vram (s : State) (v : Word) : (s.setDe v).vram = s.vram := rfl
@[simp] theorem State.setDe_ioPlain (s : State) (v : Word) : (s.setDe v).ioPlain = s.ioPlain := rfl
@[simp] theorem State.setDe_ram (s : State) (v : Word) : (s.setDe v).ram = s.ram := rfl
@[simp] theorem State.setDe_cartridge (s : State) (v : Word) : (s.setDe v).cartridge = s.cartridge := rfl
@[simp] theorem State.setDe_fault (s : State) (v : Word) : (s.setDe v).fault = s.fault := rfl
@[simp] theorem State.setDe_cycles (s : State) (v : Word) : (s.setDe v).cycles = s.cycles := rfl
@[simp] theorem State.setDe_cpu_a (s : State) (v : Word) : (s.setDe v).cpu.a = s.cpu.a := rfl
@[simp] theorem State.setDe_cpu_f (s : State) (v : Word) : (s.setDe v).cpu.f = s.cpu.f := rfl
@[simp] theorem State.setDe_cpu_b (s : State) (v : Word) : (s.setDe v).cpu.b = s.cpu.b := rfl
@[simp] theorem State.setDe_cpu_c (s : State) (v : Word) : (s.setDe v).cpu.c = s.cpu.c := rfl
@[simp] theorem State.setDe_cpu_d (s : State) (v : Word) : (s.setDe v).cpu.d = v.hi := rfl
@[simp] theorem State.setDe_cpu_e (s : State) (v : Word) : (s.setDe v).cpu.e = v.lo := rfl
@[simp] theorem State.setDe_cpu_h (s : State) (v : Word) : (s.setDe v).cpu.h = s.cpu.h := rfl
@[simp] theorem State.setDe_cpu_l (s : State) (v : Word) : (s.setDe v).cpu.l = s.cpu.l := rfl
@[simp] theorem State.setDe_cpu_sp (s : State) (v : Word) : (s.setDe v).cpu.sp = s.cpu.sp := rfl
@[simp] theorem State.setDe_cpu_pc (s : State) (v : Word) : (s.setDe v).cpu.pc = s.cpu.pc := rfl
@[simp] theorem State.setDe_cpu_halted (s : State) (v : Word) : (s.setDe v).cpu.halted = s.cpu.halted := rfl
@[simp] theorem State.setDe_cpu_stopped (s : State) (v : Word) : (s.setDe v).cpu.stopped = s.cpu.stopped := rfl

/-! ### setHl -/

@[simp] theorem State.setHl_irq (s : State) (v : Word) : (s.setHl v).irq = s.irq := rfl
@[simp] theorem State.setHl_timer (s : State) (v : Word) : (s.setHl v).timer = s.timer := rfl
@[simp] theorem State.setHl_ppu (s : State) (v : Word) : (s.setHl v).ppu = s.ppu := rfl
@[simp] theorem State.setHl_serial (s : State) (v : Word) : (s.setHl v).serial = s.serial := rfl
@[simp] theorem State.setHl_joypad (s : State) (v : Word) : (s.setHl v).joypad = s.joypad := rfl
@[simp] theorem State.setHl_vram (s : State) (v : Word) : (s.setHl v).vram = s.vram := rfl
@[simp] theorem State.setHl_ioPlain (s : State) (v : Word) : (s.setHl v).ioPlain = s.ioPlain := rfl
@[simp] theorem State.setHl_ram (s : State) (v : Word) : (s.setHl v).ram = s.ram := rfl
@[simp] theorem State.setHl_cartridge (s : State) (v : Word) : (s.setHl v).cartridge = s.cartridge := rfl
@[simp] theorem State.setHl_fault (s : State) (v : Word) : (s.setHl v).fault = s.fault := rfl
@[simp] theorem State.setHl_cycles (s : State) (v : Word) : (s.setHl v).cycles = s.cycles := rfl
@[simp] theorem State.setHl_cpu_a (s : State) (v : Word) : (s.setHl v).cpu.a = s.cpu.a := rfl
@[simp] theorem State.setHl_cpu_f (s : State) (v : Word) : (s.setHl v).cpu.f = s.cpu.f := rfl
@[simp] theorem State.setHl_cpu_b (s : State) (v : Word) : (s.setHl v).cpu.b = s.cpu.b := rfl
@[simp] theorem State.setHl_cpu_c (s : State) (v : Word) : (s.setHl v).cpu.c = s.cpu.c := rfl
@[simp] theorem State.setHl_cpu_d (s : State) (v : Word) : (s.setHl v).cpu.d = s.cpu.d := rfl
@[simp] theorem State.setHl_cpu_e (s : State) (v : Word) : (s.setHl v).cpu.e = s.cpu.e := rfl
@[simp] theorem State.setHl_cpu_h (s : State) (v : Word) : (s.setHl v).cpu.h = v.hi := rfl
@[simp] theorem State.setHl_cpu_l (s : State) (v : Word) : (s.setHl v).cpu.l = v.lo := rfl
@[simp] theorem State.setHl_cpu_sp (s : State) (v : Word) : (s.setHl v).cpu.sp = s.cpu.sp := rfl
@[simp] theorem State.setHl_cpu_pc (s : State) (v : Word) : (s.setHl v).cpu.pc = s.cpu.pc := rfl
@[simp] theorem State.setHl_cpu_halted (s : State) (v : Word) : (s.setHl v).cpu.halted = s.cpu.halted := rfl
@[simp] theorem State.setHl_cpu_stopped (s : State) (v : Word) : (s.setHl v).cpu.stopped = s.cpu.stopped := rfl

/-! ### setAf -/

@[simp] theorem State.setAf_irq (s : State) (v : Word) : (s.setAf v).irq = s.irq := rfl
@[simp] theorem State.setAf_timer (s : State) (v : Word) : (s.setAf v).timer = s.timer := rfl
@[simp] theorem State.setAf_ppu (s : State) (v : Word) : (s.setAf v).ppu = s.ppu := rfl
@[simp] theorem State.setAf_serial (s : State) (v : Word) : (s.setAf v).serial = s.serial := rfl
@[simp] theorem State.setAf_joypad (s : State) (v : Word) : (s.setAf v).joypad = s.joypad := rfl
@[simp] theorem State.setAf_vram (s : State) (v : Word) : (s.setAf v).vram = s.vram := rfl
@[simp] theorem State.setAf_ioPlain (s : State) (v : Word) : (s.setAf v).ioPlain = s.ioPlain := rfl
@[simp] theorem State.setAf_ram (s : State) (v : Word) : (s.setAf v).ram = s.ram := rfl
@[simp] theorem State.setAf_cartridge (s : State) (v : Word) : (s.setAf v).cartridge = s.cartridge := rfl
@[simp] theorem State.setAf_fault (s : State) (v : Word) : (s.setAf v).fault = s.fault := rfl
@[simp] theorem State.setAf_cycles (s : State) (v : Word) : (s.setAf v).cycles = s.cycles := rfl
@[simp] theorem State.setAf_cpu_a (s : State) (v : Word) : (s.setAf v).cpu.a = v.hi := rfl
@[simp] theorem State.setAf_cpu_f (s : State) (v : Word) : (s.setAf v).cpu.f = v.lo &&& 0xF0 := rfl
@[simp] theorem State.setAf_cpu_b (s : State) (v : Word) : (s.setAf v).cpu.b = s.cpu.b := rfl
@[simp] theorem State.setAf_cpu_c (s : State) (v : Word) : (s.setAf v).cpu.c = s.cpu.c := rfl
@[simp] theorem State.setAf_cpu_d (s : State) (v : Word) : (s.setAf v).cpu.d = s.cpu.d := rfl
@[simp] theorem State.setAf_cpu_e (s : State) (v : Word) : (s.setAf v).cpu.e = s.cpu.e := rfl
@[simp] theorem State.setAf_cpu_h (s : State) (v : Word) : (s.setAf v).cpu.h = s.cpu.h := rfl
@[simp] theorem State.setAf_cpu_l (s : State) (v : Word) : (s.setAf v).cpu.l = s.cpu.l := rfl
@[simp] theorem State.setAf_cpu_sp (s : State) (v : Word) : (s.setAf v).cpu.sp = s.cpu.sp := rfl
@[simp] theorem State.setAf_cpu_pc (s : State) (v : Word) : (s.setAf v).cpu.pc = s.cpu.pc := rfl
@[simp] theorem State.setAf_cpu_halted (s : State) (v : Word) : (s.setAf v).cpu.halted = s.cpu.halted := rfl
@[simp] theorem State.setAf_cpu_stopped (s : State) (v : Word) : (s.setAf v).cpu.stopped = s.cpu.stopped := rfl

/-! ### setSp -/

@[simp] theorem State.setSp_irq (s : State) (v : Word) : (s.setSp v).irq = s.irq := rfl
@[simp] theorem State.setSp_timer (s : State) (v : Word) : (s.setSp v).timer = s.timer := rfl
@[simp] theorem State.setSp_ppu (s : State) (v : Word) : (s.setSp v).ppu = s.ppu := rfl
@[simp] theorem State.setSp_serial (s : State) (v : Word) : (s.setSp v).serial = s.serial := rfl
@[simp] theorem State.setSp_joypad (s : State) (v : Word) : (s.setSp v).joypad = s.joypad := rfl
@[simp] theorem State.setSp_vram (s : State) (v : Word) : (s.setSp v).vram = s.vram := rfl
@[simp] theorem State.setSp_ioPlain (s : State) (v : Word) : (s.setSp v).ioPlain = s.ioPlain := rfl
@[simp] theorem State.setSp_ram (s : State) (v : Word) : (s.setSp v).ram = s.ram := rfl
@[simp] theorem State.setSp_cartridge (s : State) (v : Word) : (s.setSp v).cartridge = s.cartridge := rfl
@[simp] theorem State.setSp_fault (s : State) (v : Word) : (s.setSp v).fault = s.fault := rfl
@[simp] theorem State.setSp_cycles (s : State) (v : Word) : (s.setSp v).cycles = s.cycles := rfl
@[simp] theorem State.setSp_cpu_a (s : State) (v : Word) : (s.setSp v).cpu.a = s.cpu.a := rfl
@[simp] theorem State.setSp_cpu_f (s : State) (v : Word) : (s.setSp v).cpu.f = s.cpu.f := rfl
@[simp] theorem State.setSp_cpu_b (s : State) (v : Word) : (s.setSp v).cpu.b = s.cpu.b := rfl
@[simp] theorem State.setSp_cpu_c (s : State) (v : Word) : (s.setSp v).cpu.c = s.cpu.c := rfl
@[simp] theorem State.setSp_cpu_d (s : State) (v : Word) : (s.setSp v).cpu.d = s.cpu.d := rfl
@[simp] theorem State.setSp_cpu_e (s : State) (v : Word) : (s.setSp v).cpu.e = s.cpu.e := rfl
@[simp] theorem State.setSp_cpu_h (s : State) (v : Word) : (s.setSp v).cpu.h = s.cpu.h := rfl
@[simp] theorem State.setSp_cpu_l (s : State) (v : Word) : (s.setSp v).cpu.l = s.cpu.l := rfl
@[simp] theorem State.setSp_cpu_sp (s : State) (v : Word) : (s.setSp v).cpu.sp = v := rfl
@[simp] theorem State.setSp_cpu_pc (s : State) (v : Word) : (s.setSp v).cpu.pc = s.cpu.pc := rfl
@[simp] theorem State.setSp_cpu_halted (s : State) (v : Word) : (s.setSp v).cpu.halted = s.cpu.halted := rfl
@[simp] theorem State.setSp_cpu_stopped (s : State) (v : Word) : (s.setSp v).cpu.stopped = s.cpu.stopped := rfl

/-! ### setPc -/

@[simp] theorem State.setPc_irq (s : State) (v : Word) : (s.setPc v).irq = s.irq := rfl
@[simp] theorem State.setPc_timer (s : State) (v : Word) : (s.setPc v).timer = s.timer := rfl
@[simp] theorem State.setPc_ppu (s : State) (v : Word) : (s.setPc v).ppu = s.ppu := rfl
@[simp] theorem State.setPc_serial (s : State) (v : Word) : (s.setPc v).serial = s.serial := rfl
@[simp] theorem State.setPc_joypad (s : State) (v : Word) : (s.setPc v).joypad = s.joypad := rfl
@[simp] theorem State.setPc_vram (s : State) (v : Word) : (s.setPc v).vram = s.vram := rfl
@[simp] theorem State.setPc_ioPlain (s : State) (v : Word) : (s.setPc v).ioPlain = s.ioPlain := rfl
@[simp] theorem State.setPc_ram (s : State) (v : Word) : (s.setPc v).ram = s.ram := rfl
@[simp] theorem State.setPc_cartridge (s : State) (v : Word) : (s.setPc v).cartridge = s.cartridge := rfl
@[simp] theorem State.setPc_fault (s : State) (v : Word) : (s.setPc v).fault = s.fault := rfl
@[simp] theorem State.setPc_cycles (s : State) (v : Word) : (s.setPc v).cycles = s.cycles := rfl
@[simp] theorem State.setPc_cpu_a (s : State) (v : Word) : (s.setPc v).cpu.a = s.cpu.a := rfl
@[simp] theorem State.setPc_cpu_f (s : State) (v : Word) : (s.setPc v).cpu.f = s.cpu.f := rfl
@[simp] theorem State.setPc_cpu_b (s : State) (v : Word) : (s.setPc v).cpu.b = s.cpu.b := rfl
@[simp] theorem State.setPc_cpu_c (s : State) (v : Word) : (s.setPc v).cpu.c = s.cpu.c := rfl
@[simp] theorem State.setPc_cpu_d (s : State) (v : Word) : (s.setPc v).cpu.d = s.cpu.d := rfl
@[simp] theorem State.setPc_cpu_e (s : State) (v : Word) : (s.setPc v).cpu.e = s.cpu.e := rfl
@[simp] theorem State.setPc_cpu_h (s : State) (v : Word) : (s.setPc v).cpu.h = s.cpu.h := rfl
@[simp] theorem State.setPc_cpu_l (s : State) (v : Word) : (s.setPc v).cpu.l = s.cpu.l := rfl
@[simp] theorem State.setPc_cpu_sp (s : State) (v : Word) : (s.setPc v).cpu.sp = s.cpu.sp := rfl
@[simp] theorem State.setPc_cpu_pc (s : State) (v : Word) : (s.setPc v).cpu.pc = v := rfl
@[simp] theorem State.setPc_cpu_halted (s : State) (v : Word) : (s.setPc v).cpu.halted = s.cpu.halted := rfl
@[simp] theorem State.setPc_cpu_stopped (s : State) (v : Word) : (s.setPc v).cpu.stopped = s.cpu.stopped := rfl

/-! ### setPair -/

@[simp] theorem State.setPair_irq (s : State) (p : Pair) (v : Word) : (s.setPair p v).irq = s.irq := by cases p <;> rfl
@[simp] theorem State.setPair_timer (s : State) (p : Pair) (v : Word) : (s.setPair p v).timer = s.timer := by cases p <;> rfl
@[simp] theorem State.setPair_ppu (s : State) (p : Pair) (v : Word) : (s.setPair p v).ppu = s.ppu := by cases p <;> rfl
@[simp] theorem State.setPair_serial (s : State) (p : Pair) (v : Word) : (s.setPair p v).serial = s.serial := by cases p <;> rfl
@[simp] theorem State.setPair_joypad (s : State) (p : Pair) (v : Word) : (s.setPair p v).joypad = s.joypad := by cases p <;> rfl
@[simp] theorem State.setPair_vram (s : State) (p : Pair) (v : Word) : (s.setPair p v).vram = s.vram := by cases p <;> rfl
@[simp] theorem State.setPair_ioPlain (s : State) (p : Pair) (v : Word) : (s.setPair p v).ioPlain = s.ioPlain := by cases p <;> rfl
@[simp] theorem State.setPair_ram (s : State) (p : Pair) (v : Word) : (s.setPair p v).ram = s.ram := by cases p <;> rfl
@[simp] theorem State.setPair_cartridge (s : State) (p : Pair) (v : Word) : (s.setPair p v).cartridge = s.cartridge := by cases p <;> rfl
@[simp] theorem State.setPair_fault (s : State) (p : Pair) (v : Word) : (s.setPair p v).fault = s.fault := by cases p <;> rfl
@[simp] theorem State.setPair_cycles (s : State) (p : Pair) (v : Word) : (s.setPair p v).cycles = s.cycles := by cases p <;> rfl
@[simp] theorem State.setPair_cpu_a (s : State) (p : Pair) (v : Word) : (s.setPair p v).cpu.a = s.cpu.a := by cases p <;> rfl
@[simp] theorem State.setPair_cpu_f (s : State) (p : Pair) (v : Word) : (s.setPair p v).cpu.f = s.cpu.f := by cases p <;> rfl
@[simp] theorem State.setPair_cpu_pc (s : State) (p : Pair) (v : Word) : (s.setPair p v).cpu.pc = s.cpu.pc := by cases p <;> rfl
@[simp] theorem State.setPair_cpu_halted (s : State) (p : Pair) (v : Word) : (s.setPair p v).cpu.halted = s.cpu.halted := by cases p <;> rfl
@[simp] theorem State.setPair_cpu_stopped (s : State) (p : Pair) (v : Word) : (s.setPair p v).cpu.stopped = s.cpu.stopped := by cases p <;> rfl

/-! ### setStackPair -/

@[simp] theorem State.setStackPair_irq (s : State) (p : StackPair) (v : Word) : (s.setStackPair p v).irq = s.irq := by cases p <;> rfl
@[simp] theorem State.setStackPair_timer (s : State) (p : StackPair) (v : Word) : (s.setStackPair p v).timer = s.timer := by cases p <;> rfl
@[simp] theorem State.setStackPair_ppu (s : State) (p : StackPair) (v : Word) : (s.setStackPair p v).ppu = s.ppu := by cases p <;> rfl
@[simp] theorem State.setStackPair_serial (s : State) (p : StackPair) (v : Word) : (s.setStackPair p v).serial = s.serial := by cases p <;> rfl
@[simp] theorem State.setStackPair_joypad (s : State) (p : StackPair) (v : Word) : (s.setStackPair p v).joypad = s.joypad := by cases p <;> rfl
@[simp] theorem State.setStackPair_vram (s : State) (p : StackPair) (v : Word) : (s.setStackPair p v).vram = s.vram := by cases p <;> rfl
@[simp] theorem State.setStackPair_ioPlain (s : State) (p : StackPair) (v : Word) : (s.setStackPair p v).ioPlain = s.ioPlain := by cases p <;> rfl
@[simp] theorem State.setStackPair_ram (s : State) (p : StackPair) (v : Word) : (s.setStackPair p v).ram = s.ram := by cases p <;> rfl
@[simp] theorem State.setStackPair_cartridge (s : State) (p : StackPair) (v : Word) : (s.setStackPair p v).cartridge = s.cartridge := by cases p <;> rfl
@[simp] theorem State.setStackPair_fault (s : State) (p : StackPair) (v : Word) : (s.setStackPair p v).fault = s.fault := by cases p <;> rfl
@[simp] theorem State.setStackPair_cycles (s : State) (p : StackPair) (v : Word) : (s.setStackPair p v).cycles = s.cycles := by cases p <;> rfl
@[simp] theorem State.setStackPair_cpu_sp (s : State) (p : StackPair) (v : Word) : (s.setStackPair p v).cpu.sp = s.cpu.sp := by cases p <;> rfl
@[simp] theorem State.setStackPair_cpu_pc (s : State) (p : StackPair) (v : Word) : (s.setStackPair p v).cpu.pc = s.cpu.pc := by cases p <;> rfl
@[simp] theorem State.setStackPair_cpu_halted (s : State) (p : StackPair) (v : Word) : (s.setStackPair p v).cpu.halted = s.cpu.halted := by cases p <;> rfl
@[simp] theorem State.setStackPair_cpu_stopped (s : State) (p : StackPair) (v : Word) : (s.setStackPair p v).cpu.stopped = s.cpu.stopped := by cases p <;> rfl

/-! ### indStep -/

@[simp] theorem State.indStep_irq (s : State) (p : Indirect) : (s.indStep p).irq = s.irq := by cases p <;> rfl
@[simp] theorem State.indStep_timer (s : State) (p : Indirect) : (s.indStep p).timer = s.timer := by cases p <;> rfl
@[simp] theorem State.indStep_ppu (s : State) (p : Indirect) : (s.indStep p).ppu = s.ppu := by cases p <;> rfl
@[simp] theorem State.indStep_serial (s : State) (p : Indirect) : (s.indStep p).serial = s.serial := by cases p <;> rfl
@[simp] theorem State.indStep_joypad (s : State) (p : Indirect) : (s.indStep p).joypad = s.joypad := by cases p <;> rfl
@[simp] theorem State.indStep_vram (s : State) (p : Indirect) : (s.indStep p).vram = s.vram := by cases p <;> rfl
@[simp] theorem State.indStep_ioPlain (s : State) (p : Indirect) : (s.indStep p).ioPlain = s.ioPlain := by cases p <;> rfl
@[simp] theorem State.indStep_ram (s : State) (p : Indirect) : (s.indStep p).ram = s.ram := by cases p <;> rfl
@[simp] theorem State.indStep_cartridge (s : State) (p : Indirect) : (s.indStep p).cartridge = s.cartridge := by cases p <;> rfl
@[simp] theorem State.indStep_fault (s : State) (p : Indirect) : (s.indStep p).fault = s.fault := by cases p <;> rfl
@[simp] theorem State.indStep_cycles (s : State) (p : Indirect) : (s.indStep p).cycles = s.cycles := by cases p <;> rfl
@[simp] theorem State.indStep_cpu_a (s : State) (p : Indirect) : (s.indStep p).cpu.a = s.cpu.a := by cases p <;> rfl
@[simp] theorem State.indStep_cpu_f (s : State) (p : Indirect) : (s.indStep p).cpu.f = s.cpu.f := by cases p <;> rfl
@[simp] theorem State.indStep_cpu_b (s : State) (p : Indirect) : (s.indStep p).cpu.b = s.cpu.b := by cases p <;> rfl
@[simp] theorem State.indStep_cpu_c (s : State) (p : Indirect) : (s.indStep p).cpu.c = s.cpu.c := by cases p <;> rfl
@[simp] theorem State.indStep_cpu_d (s : State) (p : Indirect) : (s.indStep p).cpu.d = s.cpu.d := by cases p <;> rfl
@[simp] theorem State.indStep_cpu_e (s : State) (p : Indirect) : (s.indStep p).cpu.e = s.cpu.e := by cases p <;> rfl
@[simp] theorem State.indStep_cpu_sp (s : State) (p : Indirect) : (s.indStep p).cpu.sp = s.cpu.sp := by cases p <;> rfl
@[simp] theorem State.indStep_cpu_pc (s : State) (p : Indirect) : (s.indStep p).cpu.pc = s.cpu.pc := by cases p <;> rfl
@[simp] theorem State.indStep_cpu_halted (s : State) (p : Indirect) : (s.indStep p).cpu.halted = s.cpu.halted := by cases p <;> rfl
@[simp] theorem State.indStep_cpu_stopped (s : State) (p : Indirect) : (s.indStep p).cpu.stopped = s.cpu.stopped := by cases p <;> rfl

/-! ### Registers read after an update -/

/-- Writing one register leaves every other, the other half of its pair among them (R22). -/
theorem State.reg_setReg (s : State) (r r' : Reg8) (v : Byte) :
    (s.setReg r v).reg r' = if r' = r then v else s.reg r' := by
  cases r <;> cases r' <;> rfl

@[simp] theorem State.reg_setReg_same (s : State) (r : Reg8) (v : Byte) : (s.setReg r v).reg r = v := by
  cases r <;> rfl

@[simp] theorem State.reg_setF (s : State) (r : Reg8) (v : Byte) : (s.setF v).reg r = s.reg r := by cases r <;> rfl
@[simp] theorem State.reg_setFlags (s : State) (r : Reg8) (g : Flags) : (s.setFlags g).reg r = s.reg r := by
  cases r <;> rfl
@[simp] theorem State.reg_setSp (s : State) (r : Reg8) (v : Word) : (s.setSp v).reg r = s.reg r := by cases r <;> rfl
@[simp] theorem State.reg_setPc (s : State) (r : Reg8) (v : Word) : (s.setPc v).reg r = s.reg r := by cases r <;> rfl

/-! ### Halves and pairs (R21) -/

@[simp] theorem State.bc_setBc (s : State) (v : Word) : (s.setBc v).bc = v := by simp [State.bc]
@[simp] theorem State.de_setDe (s : State) (v : Word) : (s.setDe v).de = v := by simp [State.de]
@[simp] theorem State.hl_setHl (s : State) (v : Word) : (s.setHl v).hl = v := by simp [State.hl]

theorem State.pair_setPair (s : State) (p p' : Pair) (v : Word) :
    (s.setPair p v).pair p' = if p' = p then v else s.pair p' := by
  cases p <;> cases p' <;> simp [State.pair, State.setPair, State.bc, State.de, State.hl]

/-! ### The interrupt controller -/

@[simp] theorem signal_cpu (k : IrqSource) (s : State) : (signal k s).cpu = s.cpu := rfl
@[simp] theorem signal_timer (k : IrqSource) (s : State) : (signal k s).timer = s.timer := rfl
@[simp] theorem signal_ppu (k : IrqSource) (s : State) : (signal k s).ppu = s.ppu := rfl
@[simp] theorem signal_serial (k : IrqSource) (s : State) : (signal k s).serial = s.serial := rfl
@[simp] theorem signal_joypad (k : IrqSource) (s : State) : (signal k s).joypad = s.joypad := rfl
@[simp] theorem signal_vram (k : IrqSource) (s : State) : (signal k s).vram = s.vram := rfl
@[simp] theorem signal_ioPlain (k : IrqSource) (s : State) : (signal k s).ioPlain = s.ioPlain := rfl
@[simp] theorem signal_ram (k : IrqSource) (s : State) : (signal k s).ram = s.ram := rfl
@[simp] theorem signal_cartridge (k : IrqSource) (s : State) : (signal k s).cartridge = s.cartridge := rfl
@[simp] theorem signal_fault (k : IrqSource) (s : State) : (signal k s).fault = s.fault := rfl
@[simp] theorem signal_cycles (k : IrqSource) (s : State) : (signal k s).cycles = s.cycles := rfl
@[simp] theorem signal_irq_iflag (k : IrqSource) (s : State) : (signal k s).irq.iflag = s.irq.iflag ||| k.mask := rfl
@[simp] theorem signal_irq_ie (k : IrqSource) (s : State) : (signal k s).irq.ie = s.irq.ie := rfl
@[simp] theorem signal_irq_ime (k : IrqSource) (s : State) : (signal k s).irq.ime = s.irq.ime := rfl
@[simp] theorem signal_irq_imeSched (k : IrqSource) (s : State) : (signal k s).irq.imeSched = s.irq.imeSched := rfl

@[simp] theorem markUsed_cpu (k : IrqSource) (s : State) : (markUsed k s).cpu = s.cpu := rfl
@[simp] theorem markUsed_timer (k : IrqSource) (s : State) : (markUsed k s).timer = s.timer := rfl
@[simp] theorem markUsed_ppu (k : IrqSource) (s : State) : (markUsed k s).ppu = s.ppu := rfl
@[simp] theorem markUsed_serial (k : IrqSource) (s : State) : (markUsed k s).serial = s.serial := rfl
@[simp] theorem markUsed_joypad (k : IrqSource) (s : State) : (markUsed k s).joypad = s.joypad := rfl
@[simp] theorem markUsed_vram (k : IrqSource) (s : State) : (markUsed k s).vram = s.vram := rfl
@[simp] theorem markUsed_ioPlain (k : IrqSource) (s : State) : (markUsed k s).ioPlain = s.ioPlain := rfl
@[simp] theorem markUsed_ram (k : IrqSource) (s : State) : (markUsed k s).ram = s.ram := rfl
@[simp] theorem markUsed_cartridge (k : IrqSource) (s : State) : (markUsed k s).cartridge = s.cartridge := rfl
@[simp] theorem markUsed_fault (k : IrqSource) (s : State) : (markUsed k s).fault = s.fault := rfl
@[simp] theorem markUsed_cycles (k : IrqSource) (s : State) : (markUsed k s).cycles = s.cycles := rfl
@[simp] theorem markUsed_irq_iflag (k : IrqSource) (s : State) : (markUsed k s).irq.iflag = s.irq.iflag &&& ~~~k.mask := rfl
@[simp] theorem markUsed_irq_ie (k : IrqSource) (s : State) : (markUsed k s).irq.ie = s.irq.ie := rfl
@[simp] theorem markUsed_irq_ime (k : IrqSource) (s : State) : (markUsed k s).irq.ime = s.irq.ime := rfl
@[simp] theorem markUsed_irq_imeSched (k : IrqSource) (s : State) : (markUsed k s).irq.imeSched = s.irq.imeSched := rfl

@[simp] theorem disableInterrupts_cpu (s : State) : (disableInterrupts s).cpu = s.cpu := rfl
@[simp] theorem disableInterrupts_timer (s : State) : (disableInterrupts s).timer = s.timer := rfl
@[simp] theorem disableInterrupts_ppu (s : State) : (disableInterrupts s).ppu = s.ppu := rfl
@[simp] theorem disableInterrupts_serial (s : State) : (disableInterrupts s).serial = s.serial := rfl
@[simp] theorem disableInterrupts_joypad (s : State) : (disableInterrupts s).joypad = s.joypad := rfl
@[simp] theorem disableInterrupts_vram (s : State) : (disableInterrupts s).vram = s.vram := rfl
@[simp] theorem disableInterrupts_ioPlain (s : State) : (disableInterrupts s).ioPlain = s.ioPlain := rfl
@[simp] theorem disableInterrupts_ram (s : State) : (disableInterrupts s).ram = s.ram := rfl
@[simp] theorem disableInterrupts_cartridge (s : State) : (disableInterrupts s).cartridge = s.cartridge := rfl
@[simp] theorem disableInterrupts_fault (s : State) : (disableInterrupts s).fault = s.fault := rfl
@[simp] theorem disableInterrupts_cycles (s : State) : (disableInterrupts s).cycles = s.cycles := rfl
@[simp] theorem disableInterrupts_irq_iflag (s : State) : (disableInterrupts s).irq.iflag = s.irq.iflag := rfl
@[simp] theorem disableInterrupts_irq_ie (s : State) : (disableInterrupts s).irq.ie = s.irq.ie := rfl
@[simp] theorem disableInterrupts_irq_ime (s : State) : (disableInterrupts s).irq.ime = false := rfl
@[simp] theorem disableInterrupts_irq_imeSched (s : State) : (disableInterrupts s).irq.imeSched = false := rfl

@[simp] theorem orderEnableAll_cpu (s : State) : (orderEnableAll s).cpu = s.cpu := rfl
@[simp] theorem orderEnableAll_timer (s : State) : (orderEnableAll s).timer = s.timer := rfl
@[simp] theorem orderEnableAll_ppu (s : State) : (orderEnableAll s).ppu = s.ppu := rfl
@[simp] theorem orderEnableAll_serial (s : State) : (orderEnableAll s).serial = s.serial := rfl
@[simp] theorem orderEnableAll_joypad (s : State) : (orderEnableAll s).joypad = s.joypad := rfl
@[simp] theorem orderEnableAll_vram (s : State) : (orderEnableAll s).vram = s.vram := rfl
@[simp] theorem orderEnableAll_ioPlain (s : State) : (orderEnableAll s).ioPlain = s.ioPlain := rfl
@[simp] theorem orderEnableAll_ram (s : State) : (orderEnableAll s).ram = s.ram := rfl
@[simp] theorem orderEnableAll_cartridge (s : State) : (orderEnableAll s).cartridge = s.cartridge := rfl
@[simp] theorem orderEnableAll_fault (s : State) : (orderEnableAll s).fault = s.fault := rfl
@[simp] theorem orderEnableAll_cycles (s : State) : (orderEnableAll s).cycles = s.cycles := rfl
@[simp] theorem orderEnableAll_irq_iflag (s : State) : (orderEnableAll s).irq.iflag = s.irq.iflag := rfl
@[simp] theorem orderEnableAll_irq_ie (s : State) : (orderEnableAll s).irq.ie = s.irq.ie := rfl
@[simp] theorem orderEnableAll_irq_ime (s : State) : (orderEnableAll s).irq.ime = s.irq.ime := rfl
@[simp] theorem orderEnableAll_irq_imeSched (s : State) : (orderEnableAll s).irq.imeSched = true := rfl

@[simp] theorem enableInterrupts_cpu (s : State) : (enableInterrupts s).cpu = s.cpu := rfl
@[simp] theorem enableInterrupts_timer (s : State) : (enableInterrupts s).timer = s.timer := rfl
@[simp] theorem enableInterrupts_ppu (s : State) : (enableInterrupts s).ppu = s.ppu := rfl
@[simp] theorem enableInterrupts_serial (s : State) : (enableInterrupts s).serial = s.serial := rfl
@[simp] theorem enableInterrupts_joypad (s : State) : (enableInterrupts s).joypad = s.joypad := rfl
@[simp] theorem enableInterrupts_vram (s : State) : (enableInterrupts s).vram = s.vram := rfl
@[simp] theorem enableInterrupts_ioPlain (s : State) : (enableInterrupts s).ioPlain = s.ioPlain := rfl
@[simp] theorem enableInterrupts_ram (s : State) : (enableInterrupts s).ram = s.ram := rfl
@[simp] theorem enableInterrupts_cartridge (s : State) : (enableInterrupts s).cartridge = s.cartridge := rfl
@[simp] theorem enableInterrupts_fault (s : State) : (enableInterrupts s).fault = s.fault := rfl
@[simp] theorem enableInterrupts_cycles (s : State) : (enableInterrupts s).cycles = s.cycles := rfl
@[simp] theorem enableInterrupts_irq_iflag (s : State) : (enableInterrupts s).irq.iflag = s.irq.iflag := rfl
@[simp] theorem enableInterrupts_irq_ie (s : State) : (enableInterrupts s).irq.ie = s.irq.ie := rfl
@[simp] theorem enableInterrupts_irq_ime (s : State) : (enableInterrupts s).irq.ime = true := rfl
@[simp] theorem enableInterrupts_irq_imeSched (s : State) : (enableInterrupts s).irq.imeSched = false := rfl

@[simp] theorem updateState_cpu (before : Bool) (s : State) : (updateState before s).cpu = s.cpu := by unfold updateState; split <;> rfl
@[simp] theorem updateState_timer (before : Bool) (s : State) : (updateState before s).timer = s.timer := by unfold updateState; split <;> rfl
@[simp] theorem updateState_ppu (before : Bool) (s : State) : (updateState before s).ppu = s.ppu := by unfold updateState; split <;> rfl
@[simp] theorem updateState_serial (before : Bool) (s : State) : (updateState before s).serial = s.serial := by unfold updateState; split <;> rfl
@[simp] theorem updateState_joypad (before : Bool) (s : State) : (updateState before s).joypad = s.joypad := by unfold updateState; split <;> rfl
@[simp] theorem updateState_vram (before : Bool) (s : State) : (updateState before s).vram = s.vram := by unfold updateState; split <;> rfl
@[simp] theorem updateState_ioPlain (before : Bool) (s : State) : (updateState before s).ioPlain = s.ioPlain := by unfold updateState; split <;> rfl
@[simp] theorem updateState_ram (before : Bool) (s : State) : (updateState before s).ram = s.ram := by unfold updateState; split <;> rfl
@[simp] theorem updateState_cartridge (before : Bool) (s : State) : (updateState before s).cartridge = s.cartridge := by unfold updateState; split <;> rfl
@[simp] theorem updateState_fault (before : Bool) (s : State) : (updateState before s).fault = s.fault := by unfold updateState; split <;> rfl
@[simp] theorem updateState_cycles (before : Bool) (s : State) : (updateState before s).cycles = s.cycles := by unfold updateState; split <;> rfl
@[simp] theorem updateState_irq_iflag (before : Bool) (s : State) : (updateState before s).irq.iflag = s.irq.iflag := by unfold updateState; split <;> rfl
@[simp] theorem updateState_irq_ie (before : Bool) (s : State) : (updateState before s).irq.ie = s.irq.ie := by unfold updateState; split <;> rfl

/-! ### Results -/

@[simp] theorem mapNext_next (f : State → State) (s : State) : mapNext f (.next s) = .next (f s) := rfl
@[simp] theorem mapNext_fault (f : State → State) (r : Fault) : mapNext f (.fault r) = .fault r := rfl
@[simp] theorem mapNext_refused (f : State → State) (r : Refusal) : mapNext f (.refused r) = .refused r := rfl

/-- A mapped result is a next state only when the result was one. -/
theorem mapNext_eq_next {f : State → State} {r : Result} {t : State} (h : mapNext f r = .next t) :
    ∃ s, r = .next s ∧ t = f s := by
  cases r with
  | next s => exact ⟨s, rfl, by injection h with h; exact h.symm⟩
  | fault _ => simp at h
  | refused _ => simp at h

theorem retire_eq_next {n : Nat} {s t : State} (h : retire n s = .next t) : t = { s with cycles := s.cycles + n } := by
  unfold retire at h
  injection h with h
  exact h.symm

end Sys2Proof.Machine
end

