-- ==== Sys2Proof/Laws/Bus.lean ====
section
/-! SUPPORT. The laws of the Bus: what a read depends on, what a write can change, and reads after writes
(20_memory.md R70 to R91). -/

namespace Sys2Proof.Machine

/-! ### What a write leaves -/

@[simp] theorem Serial.writeSc_sb (p : Serial) (v : Byte) : (p.writeSc v).sb = p.sb := by
  unfold Serial.writeSc; split <;> rfl
@[simp] theorem Serial.writeSc_sc (p : Serial) (v : Byte) : (p.writeSc v).sc = v := by
  unfold Serial.writeSc; split <;> rfl

@[simp] theorem State.writeIo_cpu (s : State) (a : Nat) (v : Byte) : (s.writeIo a v).cpu = s.cpu := by
  unfold State.writeIo; split <;> rfl
@[simp] theorem memWrite_cpu (a : Word) (v : Byte) (s : State) : (memWrite a v s).cpu = s.cpu := by
  unfold memWrite; split <;> simp

@[simp] theorem State.writeIo_fault (s : State) (a : Nat) (v : Byte) : (s.writeIo a v).fault = s.fault := by
  unfold State.writeIo; split <;> rfl
@[simp] theorem memWrite_fault (a : Word) (v : Byte) (s : State) : (memWrite a v s).fault = s.fault := by
  unfold memWrite; split <;> simp

@[simp] theorem State.writeIo_cycles (s : State) (a : Nat) (v : Byte) : (s.writeIo a v).cycles = s.cycles := by
  unfold State.writeIo; split <;> rfl
@[simp] theorem memWrite_cycles (a : Word) (v : Byte) (s : State) : (memWrite a v s).cycles = s.cycles := by
  unfold memWrite; split <;> simp

@[simp] theorem State.writeIo_irq_ime (s : State) (a : Nat) (v : Byte) : (s.writeIo a v).irq.ime = s.irq.ime := by
  unfold State.writeIo; split <;> rfl
@[simp] theorem memWrite_irq_ime (a : Word) (v : Byte) (s : State) : (memWrite a v s).irq.ime = s.irq.ime := by
  unfold memWrite; split <;> simp

@[simp] theorem State.writeIo_irq_imeSched (s : State) (a : Nat) (v : Byte) : (s.writeIo a v).irq.imeSched = s.irq.imeSched := by
  unfold State.writeIo; split <;> rfl
@[simp] theorem memWrite_irq_imeSched (a : Word) (v : Byte) (s : State) : (memWrite a v s).irq.imeSched = s.irq.imeSched := by
  unfold memWrite; split <;> simp

@[simp] theorem State.writeIo_timer_timaAcc (s : State) (a : Nat) (v : Byte) : (s.writeIo a v).timer.timaAcc = s.timer.timaAcc := by
  unfold State.writeIo; split <;> rfl
@[simp] theorem memWrite_timer_timaAcc (a : Word) (v : Byte) (s : State) : (memWrite a v s).timer.timaAcc = s.timer.timaAcc := by
  unfold memWrite; split <;> simp

@[simp] theorem State.writeIo_timer_divFrozen (s : State) (a : Nat) (v : Byte) : (s.writeIo a v).timer.divFrozen = s.timer.divFrozen := by
  unfold State.writeIo; split <;> rfl
@[simp] theorem memWrite_timer_divFrozen (a : Word) (v : Byte) (s : State) : (memWrite a v s).timer.divFrozen = s.timer.divFrozen := by
  unfold memWrite; split <;> simp

@[simp] theorem State.writeIo_timer_stopFreezesTima (s : State) (a : Nat) (v : Byte) : (s.writeIo a v).timer.stopFreezesTima = s.timer.stopFreezesTima := by
  unfold State.writeIo; split <;> rfl
@[simp] theorem memWrite_timer_stopFreezesTima (a : Word) (v : Byte) (s : State) : (memWrite a v s).timer.stopFreezesTima = s.timer.stopFreezesTima := by
  unfold memWrite; split <;> simp

@[simp] theorem State.writeIo_ppu_mode (s : State) (a : Nat) (v : Byte) : (s.writeIo a v).ppu.mode = s.ppu.mode := by
  unfold State.writeIo; split <;> rfl
@[simp] theorem memWrite_ppu_mode (a : Word) (v : Byte) (s : State) : (memWrite a v s).ppu.mode = s.ppu.mode := by
  unfold memWrite; split <;> simp

@[simp] theorem State.writeIo_ppu_dots (s : State) (a : Nat) (v : Byte) : (s.writeIo a v).ppu.dots = s.ppu.dots := by
  unfold State.writeIo; split <;> rfl
@[simp] theorem memWrite_ppu_dots (a : Word) (v : Byte) (s : State) : (memWrite a v s).ppu.dots = s.ppu.dots := by
  unfold memWrite; split <;> simp

@[simp] theorem State.writeIo_ppu_ly (s : State) (a : Nat) (v : Byte) : (s.writeIo a v).ppu.ly = s.ppu.ly := by
  unfold State.writeIo; split <;> rfl
@[simp] theorem memWrite_ppu_ly (a : Word) (v : Byte) (s : State) : (memWrite a v s).ppu.ly = s.ppu.ly := by
  unfold memWrite; split <;> simp

@[simp] theorem State.writeIo_ppu_coincidence (s : State) (a : Nat) (v : Byte) : (s.writeIo a v).ppu.coincidence = s.ppu.coincidence := by
  unfold State.writeIo; split <;> rfl
@[simp] theorem memWrite_ppu_coincidence (a : Word) (v : Byte) (s : State) : (memWrite a v s).ppu.coincidence = s.ppu.coincidence := by
  unfold memWrite; split <;> simp

@[simp] theorem State.writeIo_ppu_framebuffer (s : State) (a : Nat) (v : Byte) : (s.writeIo a v).ppu.framebuffer = s.ppu.framebuffer := by
  unfold State.writeIo; split <;> rfl
@[simp] theorem memWrite_ppu_framebuffer (a : Word) (v : Byte) (s : State) : (memWrite a v s).ppu.framebuffer = s.ppu.framebuffer := by
  unfold memWrite; split <;> simp

@[simp] theorem State.writeIo_joypad_input (s : State) (a : Nat) (v : Byte) : (s.writeIo a v).joypad.input = s.joypad.input := by
  unfold State.writeIo; split <;> rfl
@[simp] theorem memWrite_joypad_input (a : Word) (v : Byte) (s : State) : (memWrite a v s).joypad.input = s.joypad.input := by
  unfold memWrite; split <;> simp

@[simp] theorem State.writeIo_vram (s : State) (a : Nat) (v : Byte) : (s.writeIo a v).vram = s.vram := by
  unfold State.writeIo; split <;> rfl
@[simp] theorem State.writeIo_ram (s : State) (a : Nat) (v : Byte) : (s.writeIo a v).ram = s.ram := by
  unfold State.writeIo; split <;> rfl
@[simp] theorem State.writeIo_cartridge (s : State) (a : Nat) (v : Byte) : (s.writeIo a v).cartridge = s.cartridge := by
  unfold State.writeIo; split <;> rfl

@[simp] theorem memWrite_reg (a : Word) (v : Byte) (s : State) (r : Reg8) : (memWrite a v s).reg r = s.reg r := by
  cases r <;> simp [State.reg]
@[simp] theorem memWrite_hl (a : Word) (v : Byte) (s : State) : (memWrite a v s).hl = s.hl := by simp [State.hl]
@[simp] theorem memWrite_flags (a : Word) (v : Byte) (s : State) : (memWrite a v s).flags = s.flags := by
  simp [State.flags]

/-! ### What a read depends on -/

/-- A read depends on the storage and the devices only: not on the CPU, the fault field or the cycle count. -/
theorem memRead_congr (a : Word) {s t : State} (hirq : s.irq = t.irq) (htimer : s.timer = t.timer) (hppu : s.ppu = t.ppu)
    (hserial : s.serial = t.serial) (hjoypad : s.joypad = t.joypad) (hvram : s.vram = t.vram)
    (hio : s.ioPlain = t.ioPlain) (hram : s.ram = t.ram) (hcart : s.cartridge = t.cartridge) :
    memRead a s = memRead a t := by
  unfold memRead State.readIo State.readP1 State.readStat
  rw [hirq, htimer, hppu, hserial, hjoypad, hvram, hio, hram, hcart]

@[simp] theorem memRead_setReg (a : Word) (s : State) (r : Reg8) (v : Byte) : memRead a (s.setReg r v) = memRead a s := by
  apply memRead_congr <;> simp
@[simp] theorem memRead_setF (a : Word) (s : State) (v : Byte) : memRead a (s.setF v) = memRead a s := by
  apply memRead_congr <;> simp
@[simp] theorem memRead_setFlags (a : Word) (s : State) (g : Flags) : memRead a (s.setFlags g) = memRead a s := by
  apply memRead_congr <;> simp
@[simp] theorem memRead_setBc (a : Word) (s : State) (v : Word) : memRead a (s.setBc v) = memRead a s := by
  apply memRead_congr <;> simp
@[simp] theorem memRead_setDe (a : Word) (s : State) (v : Word) : memRead a (s.setDe v) = memRead a s := by
  apply memRead_congr <;> simp
@[simp] theorem memRead_setHl (a : Word) (s : State) (v : Word) : memRead a (s.setHl v) = memRead a s := by
  apply memRead_congr <;> simp
@[simp] theorem memRead_setAf (a : Word) (s : State) (v : Word) : memRead a (s.setAf v) = memRead a s := by
  apply memRead_congr <;> simp
@[simp] theorem memRead_setSp (a : Word) (s : State) (v : Word) : memRead a (s.setSp v) = memRead a s := by
  apply memRead_congr <;> simp
@[simp] theorem memRead_setPc (a : Word) (s : State) (v : Word) : memRead a (s.setPc v) = memRead a s := by
  apply memRead_congr <;> simp
@[simp] theorem memRead_setPair (a : Word) (s : State) (p : Pair) (v : Word) : memRead a (s.setPair p v) = memRead a s := by
  apply memRead_congr <;> simp
@[simp] theorem memRead_setStackPair (a : Word) (s : State) (p : StackPair) (v : Word) : memRead a (s.setStackPair p v) = memRead a s := by
  apply memRead_congr <;> simp
@[simp] theorem memRead_indStep (a : Word) (s : State) (p : Indirect) : memRead a (s.indStep p) = memRead a s := by
  apply memRead_congr <;> simp
@[simp] theorem memRead_cycles (a : Word) (s : State) (n : Nat) : memRead a { s with cycles := n } = memRead a s := rfl
@[simp] theorem memRead_cpu (a : Word) (s : State) (c : Cpu) : memRead a { s with cpu := c } = memRead a s := rfl

/-! ### Reads after writes -/

theorem busOwner_videoRam {a : Nat} : busOwner a = .videoRam ↔ 0x8000 ≤ a ∧ a < 0xA000 := by
  unfold busOwner; split_ifs <;> simp <;> omega
theorem busOwner_cartridgeRom {a : Nat} : busOwner a = .cartridgeRom ↔ a < 0x8000 := by
  unfold busOwner; split_ifs <;> simp <;> omega
theorem busOwner_cartridgeRam {a : Nat} : busOwner a = .cartridgeRam ↔ 0xA000 ≤ a ∧ a < 0xC000 := by
  unfold busOwner; split_ifs <;> simp <;> omega
theorem busOwner_io {a : Nat} : busOwner a = .io ↔ (0xFF00 ≤ a ∧ a < 0xFF80) ∨ a = 0xFFFF := by
  unfold busOwner; split_ifs <;> simp <;> omega
theorem busOwner_fallback {a : Nat} :
    busOwner a = .fallback ↔ 0xC000 ≤ a ∧ ¬((0xFF00 ≤ a ∧ a < 0xFF80) ∨ a = 0xFFFF) := by
  unfold busOwner; split_ifs <;> simp <;> omega

theorem Word.toNat_ne {a b : Word} (h : a ≠ b) : a.toNat ≠ b.toNat := fun e => h (BitVec.eq_of_toNat_eq e)

/-- A register's address names one register (R75). -/
theorem ioReg_inj {a b : Nat} (h : ioReg a = ioReg b) (hp : ioReg a ≠ .plain) : a = b := by
  unfold ioReg at h hp
  split at h <;> split at h <;> simp_all

/-- A write to one IO address leaves every other IO register's read as it was. -/
theorem State.readIo_writeIo_other (s : State) {a b : Nat} (v : Byte) (h : b ≠ a) :
    (s.writeIo a v).readIo b = s.readIo b := by
  by_cases hreg : ioReg a = ioReg b
  · by_cases hp : ioReg a = .plain
    · have hb : ioReg b = .plain := hreg ▸ hp
      simp only [State.readIo, State.writeIo, hp, hb]
      exact Memory.read_write_other _ _ h
    · exact absurd (ioReg_inj hreg hp).symm h
  · simp only [State.readIo, State.writeIo]
    cases ha : ioReg a <;> cases hb : ioReg b <;> simp_all [State.readP1, State.readStat]

@[simp] theorem Cartridge.writeRam_mapper (c : Cartridge) (a : Nat) (v : Byte) : (c.writeRam a v).mapper = c.mapper := by
  unfold Cartridge.writeRam; split <;> rfl
@[simp] theorem Cartridge.writeRam_readRom (c : Cartridge) (a b : Nat) (v : Byte) :
    (c.writeRam a v).readRom b = c.readRom b := by
  unfold Cartridge.writeRam; split <;> rfl
@[simp] theorem Cartridge.writeRam_ramOffset (c : Cartridge) (a b : Nat) (v : Byte) :
    (c.writeRam a v).ramOffset b = c.ramOffset b := by
  unfold Cartridge.writeRam; split <;> rfl

/-- Within 0xA000 to 0xBFFF two addresses reach two offsets. -/
theorem Cartridge.ramOffset_inj (c : Cartridge) {a b k : Nat} (ha : c.ramOffset a = some k) (hb : c.ramOffset b = some k)
    (la : 0xA000 ≤ a) (lb : 0xA000 ≤ b) : a = b := by
  unfold Cartridge.ramOffset at ha hb
  cases hm : c.mapper <;> simp only [hm] at ha hb
  · simp at ha
  · split at ha
    · rename_i hc
      rw [if_pos hc] at hb
      simp only [Option.some.injEq] at ha hb
      omega
    · simp at ha

theorem Cartridge.readRam_writeRam_other (c : Cartridge) {a b : Nat} (v : Byte) (h : b ≠ a) (la : 0xA000 ≤ a)
    (lb : 0xA000 ≤ b) : (c.writeRam a v).readRam b = c.readRam b := by
  unfold Cartridge.readRam
  rw [Cartridge.writeRam_ramOffset]
  cases hb : c.ramOffset b with
  | none => rfl
  | some k =>
    unfold Cartridge.writeRam
    cases ha : c.ramOffset a with
    | none => rfl
    | some k' =>
      refine Memory.read_write_other _ _ fun e => h ?_
      subst e
      exact Cartridge.ramOffset_inj c hb ha lb la

/-- A write above the MBC registers leaves the read of every other address as it was (R91). -/
theorem memRead_memWrite_other (s : State) {a b : Word} (v : Byte) (h : b ≠ a) (ha : 0x8000 ≤ a.toNat) :
    memRead b (memWrite a v s) = memRead b s := by
  have hn := Word.toNat_ne h
  cases hoa : busOwner a.toNat with
  | cartridgeRom => rw [busOwner_cartridgeRom] at hoa; omega
  | videoRam =>
    simp only [memWrite, hoa]
    cases hob : busOwner b.toNat <;> simp only [memRead, hob] <;> try rfl
    rw [busOwner_videoRam] at hoa hob
    exact Memory.read_write_other _ _ (by omega)
  | cartridgeRam =>
    simp only [memWrite, hoa]
    cases hob : busOwner b.toNat <;> simp only [memRead, hob] <;> try rfl
    · cases s.cartridge <;> simp
    · rw [busOwner_cartridgeRam] at hoa hob
      cases s.cartridge with
      | none => rfl
      | some c => exact Cartridge.readRam_writeRam_other c v hn hoa.1 hob.1
  | io =>
    simp only [memWrite, hoa]
    cases hob : busOwner b.toNat <;> simp only [memRead, hob, State.writeIo_vram, State.writeIo_ram, State.writeIo_cartridge]
    exact State.readIo_writeIo_other s v hn
  | fallback =>
    simp only [memWrite, hoa]
    cases hob : busOwner b.toNat <;> simp only [memRead, hob] <;> try rfl
    exact Memory.read_write_other _ _ hn

/-- A write to the MBC registers can change only what the cartridge's two windows read as (R80 to R86, R91). -/
theorem memRead_memWrite_mbc (s : State) {a b : Word} (v : Byte) (ha : a.toNat < 0x8000)
    (hb : busOwner b.toNat ≠ .cartridgeRom) (hb' : busOwner b.toNat ≠ .cartridgeRam) :
    memRead b (memWrite a v s) = memRead b s := by
  simp only [memWrite, busOwner_cartridgeRom.2 ha]
  cases hob : busOwner b.toNat <;> simp_all [memRead, State.readIo, State.readP1, State.readStat]

/-- A byte of VideoRAM reads back as written (R74). -/
theorem memRead_memWrite_vram {s : State} (h : s.vram.wf = true) {a : Word} (v : Byte) (ha : busOwner a.toNat = .videoRam) :
    memRead a (memWrite a v s) = v := by
  simp only [memWrite, memRead, ha]
  exact Memory.read_write_same h _ _

/-- A byte of the fallback array reads back as written (R76). -/
theorem memRead_memWrite_fallback {s : State} (h : s.ram.wf = true) {a : Word} (v : Byte)
    (ha : busOwner a.toNat = .fallback) : memRead a (memWrite a v s) = v := by
  simp only [memWrite, memRead, ha]
  exact Memory.read_write_same h _ _

/-- A plain IO byte reads back as written (R75, D17). -/
theorem memRead_memWrite_plain {s : State} (h : s.ioPlain.wf = true) {a : Word} (v : Byte) (ha : busOwner a.toNat = .io)
    (hp : ioReg a.toNat = .plain) : memRead a (memWrite a v s) = v := by
  simp only [memWrite, memRead, ha, State.readIo, State.writeIo, hp]
  exact Memory.read_write_same h _ _

end Sys2Proof.Machine
end

