-- ==== Sys2Proof/Laws/Exec.lean ====
section
/-! SUPPORT. The meanings by form: each of the 512 meanings is the shared operation of its form, so a fact about a form is
a fact about every instruction of it. -/

namespace Sys2Proof

/-- The byte of a CB-page instruction's fields (R121) selects them again. -/
theorem Form.instr_form (i : Instr) : i.form.instr = i := by cases i <;> rfl

/-- Every form is the form of its instruction. -/
@[simp] theorem Instr.form_instr (f : Form) : f.instr.form = f := by
  cases f with
  | ldRegReg d r => cases d <;> cases r <;> rfl
  | alu op src => cases src with
    | loc l => cases l with
      | reg r => cases op <;> cases r <;> rfl
      | atHL => cases op <;> rfl
    | imm n => cases op <;> rfl
  | shift op l => cases l with
    | reg r => cases op <;> cases r <;> rfl
    | atHL => cases op <;> rfl
  | bit b l => cases l with
    | reg r => fin_cases b <;> cases r <;> rfl
    | atHL => fin_cases b <;> rfl
  | res b l => cases l with
    | reg r => fin_cases b <;> cases r <;> rfl
    | atHL => fin_cases b <;> rfl
  | set b l => cases l with
    | reg r => fin_cases b <;> cases r <;> rfl
    | atHL => fin_cases b <;> rfl
  | inc8 l => cases l with
    | reg r => cases r <;> rfl
    | atHL => rfl
  | dec8 l => cases l with
    | reg r => cases r <;> rfl
    | atHL => rfl
  | ldRegImm r _ => cases r <;> rfl
  | ldRegHl r => cases r <;> rfl
  | ldHlReg r => cases r <;> rfl
  | ldAInd p => cases p <;> rfl
  | ldIndA p => cases p <;> rfl
  | ldPairImm p _ => cases p <;> rfl
  | push p => cases p <;> rfl
  | pop p => cases p <;> rfl
  | addHl p => cases p <;> rfl
  | inc16 p => cases p <;> rfl
  | dec16 p => cases p <;> rfl
  | jpCond cc _ => cases cc <;> rfl
  | jrCond cc _ => cases cc <;> rfl
  | callCond cc _ => cases cc <;> rfl
  | retCond cc => cases cc <;> rfl
  | rst t => fin_cases t <;> rfl
  | illegal k => cases k <;> rfl
  | _ => rfl

end Sys2Proof

namespace Sys2Proof.Machine

/-- The shared operation of a form. -/
def formMeaning : Form → State → Result
  | .ldRegReg d r, s => loadRegReg d r s
  | .ldRegImm d n, s => loadRegImm d n s
  | .ldRegHl d, s => loadRegHl d s
  | .ldHlReg r, s => storeHlReg r s
  | .ldHlImm n, s => storeHlImm n s
  | .ldAInd p, s => loadAInd p s
  | .ldIndA p, s => storeIndA p s
  | .ldAAbs nn, s => loadAAbs nn s
  | .ldAbsA nn, s => storeAbsA nn s
  | .ldhAC, s => loadHighC s
  | .ldhCA, s => storeHighC s
  | .ldhAImm n, s => loadHighImm n s
  | .ldhImmA n, s => storeHighImm n s
  | .ldPairImm p nn, s => loadPairImm p nn s
  | .ldAbsSp nn, s => storeAbsSp nn s
  | .ldSpHl, s => loadSpHl s
  | .push p, s => pushPair p s
  | .pop p, s => popPair p s
  | .alu op src, s => aluOp op src s
  | .inc8 l, s => incLoc l s
  | .dec8 l, s => decLoc l s
  | .daa, s => daaOp s
  | .cpl, s => cplOp s
  | .scf, s => scfOp s
  | .ccf, s => ccfOp s
  | .addHl p, s => addHlPair p s
  | .inc16 p, s => incPair p s
  | .dec16 p, s => decPair p s
  | .addSpE e, s => addSpImm e s
  | .ldHlSpE e, s => loadHlSpE e s
  | .rlca, s => accRotate .rlc s
  | .rrca, s => accRotate .rrc s
  | .rla, s => accRotate .rl s
  | .rra, s => accRotate .rr s
  | .shift op l, s => shiftLoc op l s
  | .bit b l, s => bitLoc b l s
  | .res b l, s => resLoc b l s
  | .set b l, s => setLoc b l s
  | .jp nn, s => jumpAbs nn s
  | .jpCond cc nn, s => jumpCond cc nn s
  | .jpHl, s => jumpHl s
  | .jr e, s => jumpRel e s
  | .jrCond cc e, s => jumpRelCond cc e s
  | .call nn, s => callAbs nn s
  | .callCond cc nn, s => callCond cc nn s
  | .ret, s => retOp s
  | .retCond cc, s => retCond cc s
  | .rst t, s => rstOp t s
  | .reti, s => retiOp s
  | .nop, s => nopOp s
  | .halt, s => haltOp s
  | .stop _, s => stopOp s
  | .di, s => diOp s
  | .ei, s => eiOp s
  | .prefixCb cb, s => cbPageOp cb s
  | .illegal k, s => illegalOp k.code s

/-- Each arm of exec is its form's operation. -/
theorem exec_eq (i : Instr) (s : State) : exec i s = formMeaning i.form s := by cases i <;> rfl

/-- Executing a form's instruction is the form's operation. -/
theorem exec_form (f : Form) (s : State) : exec f.instr s = formMeaning f s := by
  rw [exec_eq, Instr.form_instr]

end Sys2Proof.Machine
end

