-- ==== Sys2Proof/Laws/Claims.lean ====
section
/-! SUPPORT. One lemma per word of the claims (Safety.lean) and per named update: which word the update meets. -/

namespace Sys2Proof.Machine

/-! ### Running an instruction -/

/-- An instruction whose form's operation retires `t` runs, and what is claimed need only be shown of `t`. -/
theorem Runs.of_retire {i : Instr} {bytes : List Byte} {n : Nat} {s t : State} {P : State → Prop}
    (he : i.form.bytes = bytes) (hx : formMeaning i.form s = retire n t) (hc : t.cycles = s.cycles)
    (hp : P { t with cycles := t.cycles + n }) : Runs i bytes n s P :=
  ⟨he, _, by rw [exec_eq, hx]; rfl, by simp [hc], hp⟩

/-- The same for the instruction of a form. -/
theorem Runs.of_form {f : Form} {bytes : List Byte} {n : Nat} {s t : State} {P : State → Prop}
    (he : f.bytes = bytes) (hx : formMeaning f s = retire n t) (hc : t.cycles = s.cycles)
    (hp : P { t with cycles := t.cycles + n }) : Runs f.instr bytes n s P :=
  Runs.of_retire (by rw [Instr.form_instr, he]) (by rw [Instr.form_instr, hx]) hc hp

/-! ### Flags -/

@[simp] theorem Flags.ofByte_toByte (f : Flags) : Flags.ofByte f.toByte = f := by
  obtain ⟨z, n, h, c⟩ := f
  revert z n h c
  decide

@[simp] theorem Flags.toByte_low (f : Flags) : f.toByte &&& 0x0F = 0 := by
  obtain ⟨z, n, h, c⟩ := f
  revert z n h c
  decide

@[simp] theorem Flags.toByte_high (f : Flags) : f.toByte &&& 0xF0 = f.toByte := by
  obtain ⟨z, n, h, c⟩ := f
  revert z n h c
  decide

theorem and_F0_low (v : Byte) : v &&& 0xF0 &&& 0x0F = 0 := by
  rw [BitVec.and_assoc]
  exact BitVec.and_zero

@[simp] theorem State.flags_setFlags (s : State) (f : Flags) : (s.setFlags f).flags = f := by
  show Flags.ofByte (f.toByte &&& 0xF0) = f
  rw [Flags.toByte_high, Flags.ofByte_toByte]

theorem HasFlags.setFlags (s : State) (f : Flags) (n : Nat) : HasFlags f { s.setFlags f with cycles := n } :=
  ⟨State.flags_setFlags s f, and_F0_low f.toByte⟩

/-! ### What an update keeps -/

theorem KeepsOutside.of_fields {s t : State} (h1 : t.cpu.halted = s.cpu.halted) (h2 : t.cpu.stopped = s.cpu.stopped)
    (h3 : t.irq = s.irq) (h4 : t.timer = s.timer) (h5 : t.ppu = s.ppu) (h6 : t.serial = s.serial)
    (h7 : t.joypad = s.joypad) (h8 : t.vram = s.vram) (h9 : t.ioPlain = s.ioPlain) (h10 : t.ram = s.ram)
    (h11 : t.cartridge = s.cartridge) (h12 : t.fault = s.fault) : KeepsOutside s t :=
  ⟨h1, h2, h3, h4, h5, h6, h7, h8, h9, h10, h11, h12, fun a => memRead_congr a h3 h4 h5 h6 h7 h8 h9 h10 h11⟩

/-- Register `r` was set. -/
theorem LoadsReg.setReg (r : Reg8) (v : Byte) (s : State) (n : Nat) :
    LoadsReg r v s { s.setReg r v with cycles := n } := by
  refine ⟨State.reg_setReg_same s r v, fun q hq => ?_, by constructor <;> simp, ?_⟩
  · refine (State.reg_setReg s r q v).trans (if_neg ?_)
    simpa using hq
  · apply KeepsOutside.of_fields <;> simp

/-- Register `r` was set, then the flags. -/
theorem WritesReg.setFlags (r : Reg8) (v : Byte) (f : Flags) (s : State) (n : Nat) :
    WritesReg r v f s { (s.setReg r v).setFlags f with cycles := n } := by
  refine ⟨?_, HasFlags.setFlags _ f n, fun q hq => ?_, by constructor <;> simp, ?_⟩
  · exact (State.reg_setFlags (s.setReg r v) r f).trans (State.reg_setReg_same s r v)
  · refine (State.reg_setFlags (s.setReg r v) q f).trans ((State.reg_setReg s r q v).trans (if_neg ?_))
    simpa using hq
  · apply KeepsOutside.of_fields <;> simp

/-- The flags were set, then register `r`. -/
theorem WritesReg.setReg (r : Reg8) (v : Byte) (f : Flags) (s : State) (n : Nat) :
    WritesReg r v f s { (s.setFlags f).setReg r v with cycles := n } := by
  have h : (s.setFlags f).setReg r v = (s.setReg r v).setFlags f := by cases r <;> rfl
  rw [h]
  exact WritesReg.setFlags r v f s n

/-- The flags were set. -/
theorem WritesFlags.setFlags (f : Flags) (s : State) (n : Nat) :
    WritesFlags f s { s.setFlags f with cycles := n } := by
  refine ⟨HasFlags.setFlags _ f n, fun q _ => State.reg_setFlags s q f, by constructor <;> simp, ?_⟩
  apply KeepsOutside.of_fields <;> simp

/-- A pair, or SP, was set. -/
theorem SetsPair.setPair (p : Pair) (v : Word) (s : State) (n : Nat) :
    SetsPair p v s { s.setPair p v with cycles := n } := by
  refine ⟨(State.pair_setPair s p p v).trans (if_pos rfl), fun q hq => ?_, ?_, by simp, by simp, ?_⟩
  · cases p <;> cases q <;> first | rfl | simp [pairRegs] at hq
  · cases p <;> simp [State.setPair]
  · apply KeepsOutside.of_fields <;> simp

/-- PC was set. -/
theorem JumpsTo.setPc (v : Word) (s : State) (n : Nat) : JumpsTo v s { s.setPc v with cycles := n } := by
  refine ⟨rfl, fun q _ => State.reg_setPc s q v, rfl, rfl, ?_⟩
  apply KeepsOutside.of_fields <;> simp

/-- Nothing was set. -/
theorem JumpsTo.refl (s : State) (n : Nat) : JumpsTo s.cpu.pc s { s with cycles := n } :=
  ⟨rfl, fun q _ => by cases q <;> rfl, rfl, rfl, by apply KeepsOutside.of_fields <;> rfl⟩

/-- PC was popped. -/
theorem ReturnsFrom.returnFromStack (s : State) (n : Nat) : ReturnsFrom s { returnFromStack s with cycles := n } := by
  refine ⟨rfl, rfl, fun q _ => by cases q <;> rfl, rfl, ?_⟩
  apply KeepsOutside.of_fields <;> rfl

/-! ### Conditions -/

/-- The condition the machine evaluates is the one of F's bits. -/
theorem condHolds_iff (cc : Cond) (s : State) : condHolds cc s.flags = true ↔ condTrue cc s := by
  cases cc <;> simp [condHolds, condTrue, State.flags, Flags.ofByte]

/-! ### Stores -/

/-- A byte that stores whole reads back as written, where the arrays are canonical. -/
theorem memRead_memWrite_whole {s : State} (h : s.Canonical) {a : Word} (v : Byte) (ha : storesWhole a = true) :
    memRead a (memWrite a v s) = v := by
  unfold storesWhole at ha
  cases ho : busOwner a.toNat <;> simp only [ho] at ha
  · simp at ha
  · exact memRead_memWrite_vram h.vram v ho
  · simp at ha
  · cases hr : ioReg a.toNat <;> simp only [hr] at ha
    case plain => exact memRead_memWrite_plain h.ioPlain v ho hr
    all_goals first
      | exact absurd ha (by decide)
      | simp [memRead, memWrite, ho, State.readIo, State.writeIo, hr]
  · exact memRead_memWrite_fallback h.ram v ho

/-- A write leaves every other address, unless it reaches the MBC registers, which leave all but the cartridge's windows. -/
theorem memRead_memWrite_outside (s : State) {a b : Word} (v : Byte) (h : b ≠ a)
    (hm : 0x8000 ≤ a.toNat ∨ cartridgeWindow b = false) : memRead b (memWrite a v s) = memRead b s := by
  by_cases ha : 0x8000 ≤ a.toNat
  · exact memRead_memWrite_other s v h ha
  · have hw : cartridgeWindow b = false := by
      rcases hm with hm | hm
      · exact absurd hm ha
      · exact hm
    apply memRead_memWrite_mbc s v (by omega)
    all_goals intro hb; simp [cartridgeWindow, hb] at hw

/-- An address that stores whole is outside the cartridge's windows. -/
theorem cartridgeWindow_of_storesWhole {a : Word} (h : storesWhole a = true) : cartridgeWindow a = false := by
  unfold storesWhole at h
  unfold cartridgeWindow
  cases ho : busOwner a.toNat <;> simp_all

/-- A write keeps the arrays canonical. -/
theorem State.Canonical.memWrite {s : State} (h : s.Canonical) (a : Word) (v : Byte) :
    (Machine.memWrite a v s).Canonical := by
  cases ho : busOwner a.toNat <;> simp only [Machine.memWrite, ho]
  · exact ⟨h.vram, h.ioPlain, h.ram⟩
  · exact ⟨Memory.wf_write h.vram _ _, h.ioPlain, h.ram⟩
  · exact ⟨h.vram, h.ioPlain, h.ram⟩
  · refine ⟨by simpa using h.vram, ?_, by simpa using h.ram⟩
    unfold State.writeIo
    split <;> first | exact h.ioPlain | exact Memory.wf_write h.ioPlain _ _
  · exact ⟨h.vram, h.ioPlain, Memory.wf_write h.ram _ _⟩

/-- Giving a state the CPU it has. -/
theorem State.with_own_cpu {u : State} {c : Cpu} (h : u.cpu = c) (n : Nat) :
    ({ u with cpu := c, cycles := n } : State) = { u with cycles := n } := by
  subst h
  rfl

/-- Whatever is done to the registers and the count after one MemWrite. -/
theorem StoresByte.of_memWrite (a : Word) (v : Byte) (s : State) (c : Cpu) (n : Nat)
    (hh : c.halted = s.cpu.halted) (hs : c.stopped = s.cpu.stopped) :
    StoresByte a v s { memWrite a v s with cpu := c, cycles := n } where
  outside := rfl
  halted := hh
  stopped := hs
  others _ hx hm := memRead_memWrite_outside s v hx hm
  stored h ha := memRead_memWrite_whole h v ha

/-- Whatever is done to the registers and the count after two MemWrites to different addresses. -/
theorem StoresTwo.of_memWrite {a b : Word} (hne : a ≠ b) (v w : Byte) (s : State) (c : Cpu) (n : Nat)
    (hh : c.halted = s.cpu.halted) (hs : c.stopped = s.cpu.stopped) :
    StoresTwo a v b w s { memWrite b w (memWrite a v s) with cpu := c, cycles := n } where
  outside := rfl
  halted := hh
  stopped := hs
  others x ha hb hm := by
    refine (memRead_memWrite_outside (memWrite a v s) w hb ?_).trans (memRead_memWrite_outside s v ha ?_)
    · exact hm.imp_left And.right
    · exact hm.imp_left And.left
  storedFirst h ha := by
    refine (memRead_memWrite_outside (memWrite a v s) w hne (.inr (cartridgeWindow_of_storesWhole ha))).trans ?_
    exact memRead_memWrite_whole h v ha
  storedSecond h hb := memRead_memWrite_whole (h.memWrite a v) w hb

/-- A MemWrite does not read the registers it leaves. -/
theorem memWrite_with_cpu (a : Word) (v : Byte) (s : State) (c : Cpu) :
    memWrite a v { s with cpu := c } = { memWrite a v s with cpu := c } := by
  unfold memWrite
  split <;> try rfl
  unfold State.writeIo
  split <;> rfl

/-- Push16 as two writes and SP. -/
theorem push16_eq (v : Word) (s : State) :
    push16 v s =
      { memWrite (s.cpu.sp - 2) v.lo (memWrite (s.cpu.sp - 1) v.hi s) with cpu := { s.cpu with sp := s.cpu.sp - 2 } } := by
  have h2 : s.cpu.sp - 1 - 1 = s.cpu.sp - 2 := by bv_omega
  simp only [push16, State.setSp]
  rw [memWrite_with_cpu, memWrite_cpu, h2]
  simp only [memWrite_with_cpu]

theorem sp_sub_ne (w : Word) : w - 1 ≠ w - 2 := by bv_omega

/-- Push16, whatever PC and the count become. -/
theorem Pushes.push16 (v pc : Word) (s : State) (n : Nat) :
    Pushes v s { (push16 v s).setPc pc with cycles := n } := by
  rw [push16_eq]
  exact ⟨rfl, StoresTwo.of_memWrite (sp_sub_ne _) _ _ s { s.cpu with sp := s.cpu.sp - 2, pc := pc } n rfl rfl,
    fun q _ => by cases q <;> rfl, rfl⟩

end Sys2Proof.Machine
end

