-- ==== Sys2Proof/Laws/Decode.lean ====
section
/-! SUPPORT. Decoding one instruction from the bytes in front of it. -/

namespace Sys2Proof

theorem decode_cons (op : Byte) (rest : List Byte) :
    decode (op :: rest) =
      if rest.length < instrLength op - 1 then .error (.truncated op)
      else .ok (decodeOne op (rest.getD 0 0) (rest.getD 1 0), rest.drop (instrLength op - 1)) := rfl

theorem instrLength_bounds (op : Byte) : 1 ≤ instrLength op ∧ instrLength op ≤ 3 := by
  revert op
  decide

theorem decode_one {op : Byte} {i : Instr} (rest : List Byte) (hl : instrLength op = 1)
    (h : ∀ p q, decodeOne op p q = i) : decode ([op] ++ rest) = .ok (i, rest) := by
  simp [decode_cons, hl, h]

theorem decode_two {op p : Byte} {i : Instr} (rest : List Byte) (hl : instrLength op = 2)
    (h : ∀ q, decodeOne op p q = i) : decode ([op, p] ++ rest) = .ok (i, rest) := by
  simp [decode_cons, hl, h]

theorem decode_three {op p q : Byte} {i : Instr} (rest : List Byte) (hl : instrLength op = 3)
    (h : decodeOne op p q = i) : decode ([op, p, q] ++ rest) = .ok (i, rest) := by
  simp [decode_cons, hl, h]

end Sys2Proof
end

