-- ==== Sys2Proof/Laws/Step.lean ====
section
/-! SUPPORT. What each part of a step can change: the wake checks, the interrupt query and dispatch, the Timer's and the PPU's
ticks, and the whole CPU step. -/

namespace Sys2Proof.Machine

/-! ### The cycle count is carried along -/

theorem memWrite_with_cycles (a : Word) (v : Byte) (s : State) (n : Nat) :
    memWrite a v { s with cycles := n } = { memWrite a v s with cycles := n } := by
  unfold memWrite
  split <;> try rfl
  unfold State.writeIo
  split <;> rfl

theorem push16_with_cycles (v : Word) (s : State) (n : Nat) :
    push16 v { s with cycles := n } = { push16 v s with cycles := n } := by
  simp only [push16_eq, memWrite_with_cycles]

@[simp] theorem push16_cycles (v : Word) (s : State) : (push16 v s).cycles = s.cycles := by simp [push16]
@[simp] theorem push16_fault (v : Word) (s : State) : (push16 v s).fault = s.fault := by simp [push16]
theorem push16_cpu (v : Word) (s : State) : (push16 v s).cpu = { s.cpu with sp := s.cpu.sp - 2 } := by rw [push16_eq]

/-! ### The wake checks -/

theorem wakeHalt_eq (s : State) :
    wakeHalt s = { s with cpu := { s.cpu with halted := s.cpu.halted && decide (s.pending = 0) } } := by
  unfold wakeHalt
  by_cases h : s.cpu.halted = true ∧ s.pending ≠ 0
  · rw [if_pos h, h.1, decide_eq_false h.2]
    rfl
  · have hb : (s.cpu.halted && decide (s.pending = 0)) = s.cpu.halted := by
      cases hh : s.cpu.halted
      · rfl
      · simpa [hh] using h
    rw [if_neg h, hb]

theorem wakeStop_eq (s : State) :
    wakeStop s =
      { s with
        cpu := { s.cpu with stopped := s.cpu.stopped && !s.irq.iflag.getLsbD 4 },
        timer := { s.timer with
          divFrozen := s.timer.divFrozen && !(s.cpu.stopped && s.irq.iflag.getLsbD 4) } } := by
  unfold wakeStop
  by_cases h : s.cpu.stopped = true ∧ s.irq.iflag.getLsbD 4 = true
  · rw [if_pos h, h.1, h.2]
    simp only [Bool.not_true, Bool.and_false, Bool.and_self]
  · have hb : (s.cpu.stopped && s.irq.iflag.getLsbD 4) = false := by
      cases hs : s.cpu.stopped
      · rfl
      · simpa [hs] using h
    have hc : (s.cpu.stopped && !s.irq.iflag.getLsbD 4) = s.cpu.stopped := by
      cases hs : s.cpu.stopped
      · rfl
      · simpa [hs] using hb
    rw [if_neg h, hb, hc, Bool.not_false, Bool.and_true]

/-- The wake checks write the two execution-state booleans and DIV's freeze, nothing else. -/
theorem wakeChecks_eq (s : State) :
    wakeChecks s =
      { s with
        cpu := { s.cpu with
          halted := s.cpu.halted && decide (s.pending = 0), stopped := s.cpu.stopped && !s.irq.iflag.getLsbD 4 },
        timer := { s.timer with
          divFrozen := s.timer.divFrozen && !(s.cpu.stopped && s.irq.iflag.getLsbD 4) } } := by
  rw [wakeChecks, wakeStop_eq, wakeHalt_eq]

theorem wakeChecks_with_cycles (s : State) (n : Nat) :
    wakeChecks { s with cycles := n } = { wakeChecks s with cycles := n } := by
  rw [wakeChecks_eq, wakeChecks_eq s]
  rfl

@[simp] theorem wakeChecks_irq (s : State) : (wakeChecks s).irq = s.irq := by rw [wakeChecks_eq]
@[simp] theorem wakeChecks_ppu (s : State) : (wakeChecks s).ppu = s.ppu := by rw [wakeChecks_eq]
@[simp] theorem wakeChecks_cartridge (s : State) : (wakeChecks s).cartridge = s.cartridge := by rw [wakeChecks_eq]
@[simp] theorem wakeChecks_fault (s : State) : (wakeChecks s).fault = s.fault := by rw [wakeChecks_eq]
@[simp] theorem wakeChecks_pending (s : State) : (wakeChecks s).pending = s.pending := by simp [State.pending]

theorem wakeChecks_reg (s : State) (r : Reg8) : (wakeChecks s).reg r = s.reg r := by
  rw [wakeChecks_eq]
  cases r <;> rfl

/-- A CPU still halted after the wake checks has nothing pending. -/
theorem pending_of_wakeChecks_halted {s : State} (h : (wakeChecks s).cpu.halted = true) : s.pending = 0 := by
  rw [wakeChecks_eq] at h
  simp at h
  exact h.2

/-! ### The interrupt query and dispatch -/

/-- The scan finds a source exactly where a bit is set. -/
theorem leastSource_isSome (p : BitVec 5) : (leastSource p).isSome = decide (p ≠ 0) := by
  revert p
  decide

theorem readyInterrupt_of_pending {s : State} (h : s.pending = 0) : readyInterrupt s = none := by
  simp [readyInterrupt, h, leastSource]

/-- A CPU halted with nothing pending, or stopped, takes no interrupt. -/
theorem serviceInterrupts_of_idle {s : State} (h : s.idle = true) (hp : s.cpu.halted = true → s.pending = 0) :
    serviceInterrupts s = s := by
  unfold serviceInterrupts
  split
  · rfl
  · rename_i hs
    rw [readyInterrupt_of_pending (hp (by simpa [State.idle, hs] using h))]

/-- Dispatch as one update of the pushed state. -/
theorem dispatch_eq (k : IrqSource) (s : State) :
    dispatch k s =
      { push16 s.cpu.pc s with
        cpu := { s.cpu with sp := s.cpu.sp - 2, pc := k.vector, halted := false },
        irq := { (push16 s.cpu.pc s).irq with
          iflag := (push16 s.cpu.pc s).irq.iflag &&& ~~~k.mask, ime := false, imeSched := false },
        cycles := s.cycles + 5 } := by
  simp only [dispatch, push16_with_cycles, State.setPc, disableInterrupts, markUsed, push16_cpu, Config.intDispatchCycles]

/-! ### The Timer -/

theorem divTick_eq (c : Nat) (s : State) :
    divTick c s = { s with timer := { s.timer with div := (divTick c s).timer.div, divAcc := (divTick c s).timer.divAcc } } := by
  unfold divTick
  split <;> rfl

/-- TIMA's increments write TIMA and the Timer request. -/
theorem timaIncrements_eq (n : Nat) (s : State) :
    timaIncrements n s =
      { s with
        timer := { s.timer with tima := (timaIncrements n s).timer.tima },
        irq := { s.irq with iflag := (timaIncrements n s).irq.iflag } } := by
  induction n generalizing s with
  | zero => rfl
  | succ n ih =>
    rw [timaIncrements, ih (timaIncrement s)]
    unfold timaIncrement
    split <;> rfl

/-- A Timer tick writes DIV, TIMA, their accumulators and IF. -/
theorem timerTick_eq (c : Nat) (s : State) :
    timerTick c s =
      { s with
        timer := { s.timer with
          div := (timerTick c s).timer.div, divAcc := (timerTick c s).timer.divAcc,
          tima := (timerTick c s).timer.tima, timaAcc := (timerTick c s).timer.timaAcc },
        irq := { s.irq with iflag := (timerTick c s).irq.iflag } } := by
  unfold timerTick timaTick
  rw [divTick_eq]
  split
  · rw [timaIncrements_eq]
  · rfl

@[simp] theorem timerTick_cpu (c : Nat) (s : State) : (timerTick c s).cpu = s.cpu := by rw [timerTick_eq]
@[simp] theorem timerTick_ppu (c : Nat) (s : State) : (timerTick c s).ppu = s.ppu := by rw [timerTick_eq]
@[simp] theorem timerTick_serial (c : Nat) (s : State) : (timerTick c s).serial = s.serial := by rw [timerTick_eq]
@[simp] theorem timerTick_joypad (c : Nat) (s : State) : (timerTick c s).joypad = s.joypad := by rw [timerTick_eq]
@[simp] theorem timerTick_vram (c : Nat) (s : State) : (timerTick c s).vram = s.vram := by rw [timerTick_eq]
@[simp] theorem timerTick_ioPlain (c : Nat) (s : State) : (timerTick c s).ioPlain = s.ioPlain := by rw [timerTick_eq]
@[simp] theorem timerTick_ram (c : Nat) (s : State) : (timerTick c s).ram = s.ram := by rw [timerTick_eq]
@[simp] theorem timerTick_cartridge (c : Nat) (s : State) : (timerTick c s).cartridge = s.cartridge := by rw [timerTick_eq]
@[simp] theorem timerTick_fault (c : Nat) (s : State) : (timerTick c s).fault = s.fault := by rw [timerTick_eq]
@[simp] theorem timerTick_cycles (c : Nat) (s : State) : (timerTick c s).cycles = s.cycles := by rw [timerTick_eq]
@[simp] theorem timerTick_ime (c : Nat) (s : State) : (timerTick c s).irq.ime = s.irq.ime := by rw [timerTick_eq]
@[simp] theorem timerTick_imeSched (c : Nat) (s : State) : (timerTick c s).irq.imeSched = s.irq.imeSched := by
  rw [timerTick_eq]

/-! ### The PPU -/

/-- What no part of a PPU tick changes: a predicate closed under the updates it is made of. -/
structure PpuTicked (s t : State) : Prop where
  cpu : t.cpu = s.cpu
  timer : t.timer = s.timer
  serial : t.serial = s.serial
  joypad : t.joypad = s.joypad
  vram : t.vram = s.vram
  ioPlain : t.ioPlain = s.ioPlain
  ram : t.ram = s.ram
  cartridge : t.cartridge = s.cartridge
  fault : t.fault = s.fault
  cycles : t.cycles = s.cycles
  ie : t.irq.ie = s.irq.ie
  ime : t.irq.ime = s.irq.ime
  imeSched : t.irq.imeSched = s.irq.imeSched
  lcdc : t.ppu.lcdc = s.ppu.lcdc
  statEn : t.ppu.statEn = s.ppu.statEn
  lyc : t.ppu.lyc = s.ppu.lyc

theorem PpuTicked.refl (s : State) : PpuTicked s s := by constructor <;> rfl

theorem PpuTicked.trans {s t u : State} (h : PpuTicked s t) (h' : PpuTicked t u) : PpuTicked s u := by
  constructor
  · rw [h'.cpu, h.cpu]
  · rw [h'.timer, h.timer]
  · rw [h'.serial, h.serial]
  · rw [h'.joypad, h.joypad]
  · rw [h'.vram, h.vram]
  · rw [h'.ioPlain, h.ioPlain]
  · rw [h'.ram, h.ram]
  · rw [h'.cartridge, h.cartridge]
  · rw [h'.fault, h.fault]
  · rw [h'.cycles, h.cycles]
  · rw [h'.ie, h.ie]
  · rw [h'.ime, h.ime]
  · rw [h'.imeSched, h.imeSched]
  · rw [h'.lcdc, h.lcdc]
  · rw [h'.statEn, h.statEn]
  · rw [h'.lyc, h.lyc]

theorem PpuTicked.signal (k : IrqSource) (s : State) : PpuTicked s (signal k s) := by constructor <;> rfl

theorem PpuTicked.signalStatIf (k : Nat) (s : State) : PpuTicked s (signalStatIf k s) := by
  unfold Machine.signalStatIf
  split
  · exact .signal ..
  · exact .refl s

theorem PpuTicked.setMode (m : PpuMode) (s : State) : PpuTicked s (setMode m s) := by constructor <;> rfl

theorem PpuTicked.renderLine (ly : Nat) (s : State) : PpuTicked s (renderLine ly s) := by
  unfold Machine.renderLine
  split
  · constructor <;> rfl
  · exact .refl s

theorem PpuTicked.lycCheck (s : State) : PpuTicked s (lycCheck s) := by
  unfold Machine.lycCheck
  dsimp only
  split
  · exact PpuTicked.trans (t := { s with ppu := { s.ppu with coincidence := _ } }) (by constructor <;> rfl) (.signalStatIf ..)
  · constructor <;> rfl

theorem PpuTicked.setLy (v : Byte) (s : State) : PpuTicked s (setLy v s) :=
  PpuTicked.trans (t := { s with ppu := { s.ppu with ly := v } }) (by constructor <;> rfl) (.lycCheck _)

theorem PpuTicked.ppuTransition (s : State) : PpuTicked s (ppuTransition s) := by
  unfold Machine.ppuTransition
  split
  · exact (PpuTicked.setMode _ s).trans (.renderLine ..)
  · exact (PpuTicked.setMode _ s).trans (.signalStatIf ..)
  · unfold endHblank
    dsimp only
    split
    · exact (PpuTicked.setLy _ s).trans ((PpuTicked.setMode _ _).trans (.signalStatIf ..))
    · exact (PpuTicked.setLy _ s).trans ((PpuTicked.setMode _ _).trans ((PpuTicked.signal ..).trans (.signalStatIf ..)))
  · unfold endVblankLine
    split
    · exact (PpuTicked.setLy _ s).trans ((PpuTicked.setMode _ _).trans (.signalStatIf ..))
    · exact .setLy ..

theorem PpuTicked.ppuRound (s : State) : PpuTicked s (ppuRound s) :=
  PpuTicked.trans (t := { s with ppu := { s.ppu with dots := s.ppu.dots - dotBudget s.ppu.mode } })
    (by constructor <;> rfl) (.ppuTransition _)

theorem PpuTicked.ppuLoop (n : Nat) (s : State) : PpuTicked s (ppuLoop n s) := by
  induction n generalizing s with
  | zero => exact .refl s
  | succ n ih =>
    unfold Machine.ppuLoop
    split
    · exact .refl s
    · exact (PpuTicked.ppuRound s).trans (ih _)

/-- A PPU tick writes the PPU's own state and IF, nothing else. -/
theorem PpuTicked.ppuTick (c : Nat) (s : State) : PpuTicked s (ppuTick c s) := by
  unfold Machine.ppuTick
  split
  · exact PpuTicked.trans (t := { s with ppu := { s.ppu with dots := s.ppu.dots + c } }) (by constructor <;> rfl)
      (.ppuLoop ..)
  · exact .refl s

@[simp] theorem ppuTick_cpu (c : Nat) (s : State) : (ppuTick c s).cpu = s.cpu := (PpuTicked.ppuTick c s).cpu
@[simp] theorem ppuTick_cartridge (c : Nat) (s : State) : (ppuTick c s).cartridge = s.cartridge :=
  (PpuTicked.ppuTick c s).cartridge
@[simp] theorem ppuTick_fault (c : Nat) (s : State) : (ppuTick c s).fault = s.fault := (PpuTicked.ppuTick c s).fault
@[simp] theorem ppuTick_cycles (c : Nat) (s : State) : (ppuTick c s).cycles = s.cycles := (PpuTicked.ppuTick c s).cycles
@[simp] theorem ppuTick_ime (c : Nat) (s : State) : (ppuTick c s).irq.ime = s.irq.ime := (PpuTicked.ppuTick c s).ime
@[simp] theorem ppuTick_imeSched (c : Nat) (s : State) : (ppuTick c s).irq.imeSched = s.irq.imeSched :=
  (PpuTicked.ppuTick c s).imeSched

/-! ### The prelude of a step -/

/-- The wake checks and the query read nothing of the cycle count. -/
theorem cpuPrelude_cycles (s : State) :
    (cpuPrelude s).cycles =
      if (wakeChecks s).cpu.stopped = false ∧ (readyInterrupt (wakeChecks s)).isSome then 5 else 0 := by
  unfold cpuPrelude
  rw [wakeChecks_with_cycles]
  unfold serviceInterrupts
  split
  · rename_i h
    simp at h
    simp [h]
  · rename_i h
    have hr : readyInterrupt { wakeChecks s with cycles := 0 } = readyInterrupt (wakeChecks s) := rfl
    rw [hr]
    split
    · rename_i h2
      simp [h2]
    · rename_i h2
      simp at h
      simp [h, h2, dispatch_eq]

/-- A CPU that the wake checks leave idle takes no interrupt. -/
theorem cpuPrelude_eq_of_idle {s : State} (h : (wakeChecks s).idle = true) :
    cpuPrelude s = { wakeChecks s with cycles := 0 } := by
  unfold cpuPrelude
  rw [wakeChecks_with_cycles]
  refine serviceInterrupts_of_idle (s := { wakeChecks s with cycles := 0 }) h fun hh => ?_
  have := pending_of_wakeChecks_halted (s := s) hh
  simpa [State.pending] using this

theorem idle_of_cpuPrelude_idle {s : State} (h : (cpuPrelude s).idle = true) : (wakeChecks s).idle = true := by
  unfold cpuPrelude at h
  rw [wakeChecks_with_cycles] at h
  unfold serviceInterrupts at h
  split at h
  · exact h
  · split at h
    · exact h
    · rw [dispatch_eq] at h
      simp [State.idle] at h
      simp [State.idle, h]

/-! ### The whole step -/

/-- A step that answers a next state is a CPU step with the two ticks after it. -/
theorem step_eq_next {s t : State} (h : step s = .next t) :
    s.fault = none ∧ ∃ u, cpuExecute (cpuPrelude s) = .next u ∧
      t = ppuTick u.cycles (timerTick u.cycles (updateState s.irq.imeSched u)) := by
  unfold step at h
  cases hf : s.fault with
  | some r => simp [hf] at h
  | none =>
    simp only [hf] at h
    refine ⟨rfl, ?_⟩
    unfold cpuStep at h
    cases hu : cpuExecute (cpuPrelude s) with
    | next u =>
      refine ⟨u, rfl, ?_⟩
      rw [hu] at h
      simp only [mapNext, Host.Outcome.next.injEq] at h
      rw [← h, updateState_cycles]
    | fault r => simp [hu, mapNext] at h
    | refused r => simp [hu, mapNext] at h

/-- And the other way round. -/
theorem step_of_execute {s u : State} (hf : s.fault = none) (h : cpuExecute (cpuPrelude s) = .next u) :
    step s = .next (ppuTick u.cycles (timerTick u.cycles (updateState s.irq.imeSched u))) := by
  simp only [step, hf, cpuStep, h, mapNext, updateState_cycles]

end Sys2Proof.Machine
end

