-- ==== Sys2Proof/Laws/Effects.lean ====
section
/-! SUPPORT. What executing an instruction can do, said once: every instruction but HALT, STOP, DI, EI, RETI and the illegal
opcodes is a sequence of register, flag and Bus writes, and then its cycle count. -/

namespace Sys2Proof.Machine

/-- The states that register, flag and Bus writes lead to. -/
inductive Effect (s : State) : State → Prop where
  | refl : Effect s s
  | reg {t : State} (r : Reg8) (v : Byte) : Effect s t → Effect s (t.setReg r v)
  | flags {t : State} (f : Flags) : Effect s t → Effect s (t.setFlags f)
  | pair {t : State} (p : Pair) (v : Word) : Effect s t → Effect s (t.setPair p v)
  | stackPair {t : State} (p : StackPair) (v : Word) : Effect s t → Effect s (t.setStackPair p v)
  | pc {t : State} (v : Word) : Effect s t → Effect s (t.setPc v)
  | write {t : State} (a : Word) (v : Byte) : Effect s t → Effect s (memWrite a v t)

theorem Effect.sp {s t : State} (v : Word) (h : Effect s t) : Effect s (t.setSp v) := h.pair .sp v

theorem Effect.push16 {s t : State} (v : Word) (h : Effect s t) : Effect s (push16 v t) := ((h.sp _).write _ _).sp _ |>.write _ _

theorem Effect.writeLoc {s t : State} (l : Loc) (v : Byte) (h : Effect s t) : Effect s (t.writeLoc l v) := by
  cases l
  · exact h.reg _ v
  · exact h.write _ v

theorem Effect.indStep {s t : State} (p : Indirect) (h : Effect s t) : Effect s (t.indStep p) := by
  cases p
  · exact h
  · exact h
  · exact h.pair .hl _
  · exact h.pair .hl _

/-- The forms whose effect is more than register, flag and Bus writes. -/
def isSystem : Form → Bool
  | .halt => true
  | .stop _ => true
  | .di => true
  | .ei => true
  | .reti => true
  | .illegal _ => true
  | _ => false

/-- The cycle counts of the rules. -/
def cycleCounts : List Nat := [4, 8, 12, 16, 20, 24]

/-- A form's cycle count in a state: it depends on the condition alone. -/
def formCycles (f : Form) (s : State) : Nat :=
  match f with
  | .ldRegReg _ _ => 4
  | .ldRegImm _ _ => 8
  | .ldRegHl _ => 8
  | .ldHlReg _ => 8
  | .ldHlImm _ => 12
  | .ldAInd _ => 8
  | .ldIndA _ => 8
  | .ldAAbs _ => 16
  | .ldAbsA _ => 16
  | .ldhAC => 8
  | .ldhCA => 8
  | .ldhAImm _ => 12
  | .ldhImmA _ => 12
  | .ldPairImm _ _ => 12
  | .ldAbsSp _ => 20
  | .ldSpHl => 8
  | .push _ => 16
  | .pop _ => 12
  | .inc8 l => incDecCycles l
  | .dec8 l => incDecCycles l
  | .daa => 4
  | .cpl => 4
  | .scf => 4
  | .ccf => 4
  | .addHl _ => 8
  | .inc16 _ => 8
  | .dec16 _ => 8
  | .addSpE _ => 16
  | .ldHlSpE _ => 12
  | .rlca => 4
  | .rrca => 4
  | .rla => 4
  | .rra => 4
  | .shift _ l => cbCycles l
  | .bit _ l => cbBitCycles l
  | .res _ l => cbCycles l
  | .set _ l => cbCycles l
  | .jp _ => 16
  | .jpCond cc _ => if condHolds cc s.flags then 16 else 12
  | .jpHl => 4
  | .jr _ => 12
  | .jrCond cc _ => if condHolds cc s.flags then 12 else 8
  | .call _ => 24
  | .callCond cc _ => if condHolds cc s.flags then 24 else 12
  | .ret => 16
  | .retCond cc => if condHolds cc s.flags then 20 else 8
  | .rst _ => 16
  | .nop => 4
  | .alu _ src => aluCycles src
  | .prefixCb cb =>
    match (cb.extractLsb' 6 2).toNat with
    | 1 => cbBitCycles (locOfCode (cb.extractLsb' 0 3))
    | _ => cbCycles (locOfCode (cb.extractLsb' 0 3))
  | .halt => 4
  | .stop _ => 4
  | .di => 4
  | .ei => 4
  | .reti => 16
  | .illegal _ => 0

theorem formCycles_mem (f : Form) (s : State) (h : isSystem f = false) : formCycles f s ∈ cycleCounts := by
  have hi (l : Loc) : incDecCycles l ∈ cycleCounts := by cases l <;> simp [incDecCycles, cycleCounts]
  have h8 (l : Loc) : cbCycles l ∈ cycleCounts := by cases l <;> simp [cbCycles, cycleCounts]
  have hb (l : Loc) : cbBitCycles l ∈ cycleCounts := by cases l <;> simp [cbBitCycles, Config.cbBitHlCycles, cycleCounts]
  cases f
  case alu op src => rcases src with (r | _) | n <;> simp [formCycles, aluCycles, cycleCounts]
  case inc8 l => exact hi l
  case dec8 l => exact hi l
  case shift op l => exact h8 l
  case bit b l => exact hb l
  case res b l => exact h8 l
  case set b l => exact h8 l
  case prefixCb cb =>
    simp only [formCycles]
    split
    · exact hb _
    · exact h8 _
  case illegal k => cases h
  all_goals
    simp only [formCycles]
    try split
  all_goals decide

/-- The cycle count depends on the flags alone. -/
theorem formCycles_with_cycles (f : Form) (s : State) (n : Nat) : formCycles f { s with cycles := n } = formCycles f s := by
  cases f <;> rfl

/-- Every form outside the system ones is a sequence of register, flag and Bus writes, then its cycle count. -/
theorem formMeaning_effect (f : Form) (s : State) (h : isSystem f = false) :
    ∃ t, Effect s t ∧ formMeaning f s = retire (formCycles f s) t := by
  have e : Effect s s := .refl
  cases f
  case halt => cases h
  case stop => cases h
  case di => cases h
  case ei => cases h
  case reti => cases h
  case illegal => cases h
  case ldRegReg dst r => exact ⟨_, e.reg _ _, rfl⟩
  case ldRegImm dst n => exact ⟨_, e.reg _ _, rfl⟩
  case ldRegHl dst => exact ⟨_, e.reg _ _, rfl⟩
  case ldHlReg r => exact ⟨_, e.write _ _, rfl⟩
  case ldHlImm n => exact ⟨_, e.write _ _, rfl⟩
  case ldAInd p => exact ⟨_, (e.reg _ _).indStep p, rfl⟩
  case ldIndA p => exact ⟨_, (e.write _ _).indStep p, rfl⟩
  case ldAAbs nn => exact ⟨_, e.reg _ _, rfl⟩
  case ldAbsA nn => exact ⟨_, e.write _ _, rfl⟩
  case ldhAC => exact ⟨_, e.reg _ _, rfl⟩
  case ldhCA => exact ⟨_, e.write _ _, rfl⟩
  case ldhAImm n => exact ⟨_, e.reg _ _, rfl⟩
  case ldhImmA n => exact ⟨_, e.write _ _, rfl⟩
  case ldPairImm p nn => exact ⟨_, e.pair _ _, rfl⟩
  case ldAbsSp nn => exact ⟨_, (e.write _ _).write _ _, rfl⟩
  case ldSpHl => exact ⟨_, e.sp _, rfl⟩
  case push p => exact ⟨_, e.push16 _, rfl⟩
  case pop p => exact ⟨_, (e.sp _).stackPair p _, rfl⟩
  case alu op src =>
    cases op
    case cp => exact ⟨_, e.flags _, rfl⟩
    all_goals exact ⟨_, (e.flags _).reg _ _, rfl⟩
  case inc8 l => exact ⟨_, (e.writeLoc l _).flags _, rfl⟩
  case dec8 l => exact ⟨_, (e.writeLoc l _).flags _, rfl⟩
  case daa => exact ⟨_, (e.reg _ _).flags _, rfl⟩
  case cpl => exact ⟨_, (e.reg _ _).flags _, rfl⟩
  case scf => exact ⟨_, e.flags _, rfl⟩
  case ccf => exact ⟨_, e.flags _, rfl⟩
  case addHl p => exact ⟨_, (e.pair .hl _).flags _, rfl⟩
  case inc16 p => exact ⟨_, e.pair p _, rfl⟩
  case dec16 p => exact ⟨_, e.pair p _, rfl⟩
  case addSpE n => exact ⟨_, (e.sp _).flags _, rfl⟩
  case ldHlSpE n => exact ⟨_, (e.pair .hl _).flags _, rfl⟩
  case rlca => exact ⟨_, (e.reg _ _).flags _, rfl⟩
  case rrca => exact ⟨_, (e.reg _ _).flags _, rfl⟩
  case rla => exact ⟨_, (e.reg _ _).flags _, rfl⟩
  case rra => exact ⟨_, (e.reg _ _).flags _, rfl⟩
  case shift op l => exact ⟨_, (e.writeLoc l _).flags _, rfl⟩
  case bit b l => exact ⟨_, e.flags _, rfl⟩
  case res b l => exact ⟨_, e.writeLoc l _, rfl⟩
  case set b l => exact ⟨_, e.writeLoc l _, rfl⟩
  case jp nn => exact ⟨_, e.pc _, rfl⟩
  case jpCond cc nn =>
    by_cases hc : condHolds cc s.flags = true
    · exact ⟨_, e.pc _, by simp only [formCycles, if_pos hc]; exact if_pos hc⟩
    · exact ⟨_, e, by simp only [formCycles, if_neg hc]; exact if_neg hc⟩
  case jpHl => exact ⟨_, e.pc _, rfl⟩
  case jr n => exact ⟨_, e.pc _, rfl⟩
  case jrCond cc n =>
    by_cases hc : condHolds cc s.flags = true
    · exact ⟨_, e.pc _, by simp only [formCycles, if_pos hc]; exact if_pos hc⟩
    · exact ⟨_, e, by simp only [formCycles, if_neg hc]; exact if_neg hc⟩
  case call nn => exact ⟨_, (e.push16 _).pc _, rfl⟩
  case callCond cc nn =>
    by_cases hc : condHolds cc s.flags = true
    · exact ⟨_, (e.push16 _).pc _, by simp only [formCycles, if_pos hc]; exact if_pos hc⟩
    · exact ⟨_, e, by simp only [formCycles, if_neg hc]; exact if_neg hc⟩
  case ret => exact ⟨_, (e.sp _).pc _, rfl⟩
  case retCond cc =>
    by_cases hc : condHolds cc s.flags = true
    · exact ⟨_, (e.sp _).pc _, by simp only [formCycles, if_pos hc]; exact if_pos hc⟩
    · exact ⟨_, e, by simp only [formCycles, if_neg hc]; exact if_neg hc⟩
  case rst t => exact ⟨_, (e.push16 _).pc _, rfl⟩
  case nop => exact ⟨_, e, rfl⟩
  case prefixCb cb =>
    simp only [formMeaning, cbPageOp, formCycles]
    split
    · rename_i hk
      exact ⟨_, (e.writeLoc _ _).flags _, by simp only [hk]; rfl⟩
    · rename_i hk
      exact ⟨_, e.flags _, by simp only [hk]; rfl⟩
    · rename_i hk
      exact ⟨_, e.writeLoc _ _, by simp only [hk]; rfl⟩
    · rename_i h0 h1 h2
      exact ⟨_, e.writeLoc _ _, by split <;> first | (exact absurd (by assumption) h1) | rfl⟩

/-- What no loaded cartridge changes. -/
def Cartridge.header (c : Cartridge) : Mapper × Nat × Memory × Nat := (c.mapper, c.romShift, c.rom, c.ramBanks)

theorem Cartridge.header_writeRom (c : Cartridge) (a : Nat) (v : Byte) : (c.writeRom a v).header = c.header := by
  unfold Cartridge.writeRom
  split
  · rfl
  · split <;> try split <;> try split
    all_goals rfl

theorem Cartridge.header_writeRam (c : Cartridge) (a : Nat) (v : Byte) : (c.writeRam a v).header = c.header := by
  unfold Cartridge.writeRam
  split <;> rfl

theorem memWrite_header (a : Word) (v : Byte) (s : State) :
    (memWrite a v s).cartridge.map Cartridge.header = s.cartridge.map Cartridge.header := by
  unfold memWrite
  split
  · cases s.cartridge <;> simp [Cartridge.header_writeRom]
  · rfl
  · cases s.cartridge <;> simp [Cartridge.header_writeRam]
  · simp
  · rfl

/-- What register, flag and Bus writes leave alone. -/
structure Kept (s t : State) : Prop where
  cycles : t.cycles = s.cycles
  fault : t.fault = s.fault
  halted : t.cpu.halted = s.cpu.halted
  stopped : t.cpu.stopped = s.cpu.stopped
  ime : t.irq.ime = s.irq.ime
  imeSched : t.irq.imeSched = s.irq.imeSched
  timaAcc : t.timer.timaAcc = s.timer.timaAcc
  divFrozen : t.timer.divFrozen = s.timer.divFrozen
  stopFreezesTima : t.timer.stopFreezesTima = s.timer.stopFreezesTima
  mode : t.ppu.mode = s.ppu.mode
  dots : t.ppu.dots = s.ppu.dots
  ly : t.ppu.ly = s.ppu.ly
  coincidence : t.ppu.coincidence = s.ppu.coincidence
  framebuffer : t.ppu.framebuffer = s.ppu.framebuffer
  input : t.joypad.input = s.joypad.input
  header : t.cartridge.map Cartridge.header = s.cartridge.map Cartridge.header

theorem Kept.refl (s : State) : Kept s s := by constructor <;> rfl

theorem Kept.trans {s t u : State} (h : Kept s t) (h' : Kept t u) : Kept s u :=
  ⟨h'.cycles.trans h.cycles, h'.fault.trans h.fault, h'.halted.trans h.halted, h'.stopped.trans h.stopped,
    h'.ime.trans h.ime, h'.imeSched.trans h.imeSched, h'.timaAcc.trans h.timaAcc, h'.divFrozen.trans h.divFrozen,
    h'.stopFreezesTima.trans h.stopFreezesTima, h'.mode.trans h.mode, h'.dots.trans h.dots, h'.ly.trans h.ly,
    h'.coincidence.trans h.coincidence, h'.framebuffer.trans h.framebuffer, h'.input.trans h.input,
    h'.header.trans h.header⟩

theorem Kept.memWrite (a : Word) (v : Byte) (s : State) : Kept s (memWrite a v s) := by
  constructor <;> first | exact memWrite_header a v s | simp

theorem Effect.kept {s t : State} (h : Effect s t) : Kept s t := by
  induction h with
  | refl => exact .refl s
  | reg r v _ ih => exact ih.trans (by cases r <;> constructor <;> rfl)
  | flags f _ ih => exact ih.trans (by constructor <;> rfl)
  | pair p v _ ih => exact ih.trans (by cases p <;> constructor <;> rfl)
  | stackPair p v _ ih => exact ih.trans (by cases p <;> constructor <;> rfl)
  | pc v _ ih => exact ih.trans (by constructor <;> rfl)
  | write a v _ ih => exact ih.trans (.memWrite a v _)

/-- No register, flag or Bus write makes F's low nibble non-zero. -/
theorem Effect.flagsLow {s t : State} (h : Effect s t) (hs : s.cpu.f &&& 0x0F = 0) : t.cpu.f &&& 0x0F = 0 := by
  induction h with
  | refl => exact hs
  | reg r v _ ih => cases r <;> exact ih
  | flags f _ _ => exact and_F0_low f.toByte
  | pair p v _ ih => cases p <;> exact ih
  | stackPair p v _ ih =>
    cases p
    · exact ih
    · exact ih
    · exact ih
    · exact and_F0_low v.lo
  | pc v _ ih => exact ih
  | write a v _ ih => rwa [memWrite_cpu]

end Sys2Proof.Machine
end

