-- ==== Sys2Proof/Laws/Invariant.lean ====
section
/-! SUPPORT. What each operation does to the invariant of Safety.lean: Bus writes, register writes, the tick of the Timer and of
the PPU. -/

namespace Sys2Proof.Machine

theorem Memory.ok_write {p : Nat → Bool} {m : Memory} (h : m.ok p = true) {k : Nat} (v : Byte) (hk : p k = true) :
    (m.write k v).ok p = true := by
  simp only [Memory.ok, Bool.and_eq_true] at h ⊢
  exact ⟨Memory.wf_write h.1 k v, Sparse.within_set _ p h.2 v hk⟩

theorem Memory.ok_nil (p : Nat → Bool) : Memory.ok p [] = true := rfl

theorem Cartridge.bank1Of_spec (c : Cartridge) (v : Byte) :
    c.bank1Of v ≠ 0 ∧ (c.bank1Of v).toNat < c.romBanks := by
  have hb : c.romBanks = 2 * 2 ^ c.romShift := by simp [Cartridge.romBanks, Nat.shiftLeft_eq]
  have hp : 0 < 2 ^ c.romShift := by positivity
  unfold Cartridge.bank1Of
  dsimp only
  have h1 : v.toNat % 32 &&& (c.romBanks - 1) ≤ v.toNat % 32 := Nat.and_le_left
  have h2 : v.toNat % 32 &&& (c.romBanks - 1) ≤ c.romBanks - 1 := Nat.and_le_right
  generalize v.toNat % 32 &&& (c.romBanks - 1) = x at h1 h2
  split
  · exact ⟨by decide, by simp; omega⟩
  · rename_i h0
    have hx : (BitVec.ofNat 5 x).toNat = x := by simp; omega
    refine ⟨fun e => h0 ?_, by omega⟩
    rw [← hx, e]
    rfl

theorem Cartridge.Ok.writeRom {c : Cartridge} (h : c.Ok) (a : Nat) (v : Byte) : (c.writeRom a v).Ok := by
  unfold Cartridge.writeRom
  split
  · exact h
  · split
    · exact ⟨h.rom, h.ram, h.bankNotZero, h.bankInRange⟩
    · split
      · exact ⟨h.rom, h.ram, (c.bank1Of_spec v).1, (c.bank1Of_spec v).2⟩
      · split <;> exact ⟨h.rom, h.ram, h.bankNotZero, h.bankInRange⟩

theorem Cartridge.ramOffset_lt {c : Cartridge} {a k : Nat} (h : c.ramOffset a = some k) (la : 0xA000 ≤ a) (ua : a < 0xC000) :
    k < c.ramBanks * Config.ramBankSize := by
  unfold Cartridge.ramOffset at h
  split at h
  · cases h
  · split at h
    · rename_i hr
      rw [← Option.some.inj h]
      have hm := Nat.mod_lt (if c.bankMode then c.bank2.toNat else 0) hr.2
      have hle := Nat.mul_le_mul_right Config.ramBankSize (Nat.succ_le_of_lt hm)
      rw [Nat.succ_mul] at hle
      have hk : a - 0xA000 < Config.ramBankSize := by unfold Config.ramBankSize; omega
      exact lt_of_lt_of_le (Nat.add_lt_add_left hk _) hle
    · cases h

theorem Cartridge.Ok.writeRam {c : Cartridge} (h : c.Ok) {a : Nat} (v : Byte) (la : 0xA000 ≤ a) (ua : a < 0xC000) :
    (c.writeRam a v).Ok := by
  unfold Cartridge.writeRam
  split
  · rename_i k hk
    exact ⟨h.rom, Memory.ok_write h.ram v (decide_eq_true (Cartridge.ramOffset_lt hk la ua)), h.bankNotZero, h.bankInRange⟩
  · exact h

/-- A Bus write keeps the invariant. -/
theorem State.Inv.memWrite {s : State} (h : s.Inv) (a : Word) (v : Byte) : (Machine.memWrite a v s).Inv := by
  have k := Kept.memWrite a v s
  have hdots : (Machine.memWrite a v s).ppu.dots < dotBudget (Machine.memWrite a v s).ppu.mode := by
    rw [k.dots, k.mode]; exact h.dots
  have hline : lineMatchesMode (Machine.memWrite a v s).ppu.mode (Machine.memWrite a v s).ppu.ly.toNat := by
    rw [k.mode, k.ly]; exact h.line
  have hacc : (Machine.memWrite a v s).timer.divAcc = s.timer.divAcc ∨ (Machine.memWrite a v s).timer.divAcc = 0 := by
    unfold Machine.memWrite
    split
    · exact .inl rfl
    · exact .inl rfl
    · exact .inl rfl
    · unfold State.writeIo
      split
      all_goals first | exact .inl rfl | exact .inr rfl
    · exact .inl rfl
  refine
    { flagsLow := by rw [memWrite_cpu]; exact h.flagsLow
      oneIdle := by rw [memWrite_cpu]; exact h.oneIdle
      frozen := by rw [k.divFrozen, k.stopped]; exact h.frozen
      frozenAcc := ?_, divAcc := ?_
      timaAcc := by rw [k.timaAcc]; exact h.timaAcc
      dots := hdots, line := hline
      framebuffer := by rw [k.framebuffer]; exact h.framebuffer
      vram := ?_, ioPlain := ?_, ram := ?_, cartridge := ?_
      fault := by rw [k.fault]; exact h.fault }
  · rw [k.stopped]
    intro hs
    rcases hacc with e | e
    · rw [e]; exact h.frozenAcc hs
    · exact e
  · rcases hacc with e | e
    · rw [e]; exact h.divAcc
    · rw [e]; decide
  · unfold Machine.memWrite
    split
    · exact h.vram
    · rename_i ho
      have := busOwner_videoRam.mp ho
      exact Memory.ok_write h.vram v (by simp; omega)
    · exact h.vram
    · simp [h.vram]
    · exact h.vram
  · unfold Machine.memWrite
    split
    · exact h.ioPlain
    · exact h.ioPlain
    · exact h.ioPlain
    · rename_i ho
      unfold State.writeIo
      split
      case h_22 hp =>
        refine Memory.ok_write h.ioPlain v ?_
        have hne : a.toNat ≠ 0xFFFF := by rintro e; rw [e] at hp; cases hp
        have := busOwner_io.mp ho
        simp only [plainKey, hp, Bool.and_eq_true, decide_eq_true_eq]
        exact ⟨⟨by omega, by omega⟩, trivial⟩
      all_goals exact h.ioPlain
    · exact h.ioPlain
  · unfold Machine.memWrite
    split
    · exact h.ram
    · exact h.ram
    · exact h.ram
    · simp [h.ram]
    · rename_i ho
      have := busOwner_fallback.mp ho
      refine Memory.ok_write h.ram v ?_
      simp only [fallbackKey, Bool.or_eq_true, Bool.and_eq_true, decide_eq_true_eq]
      have := a.isLt
      omega
  · unfold Machine.memWrite
    split
    · intro c hc
      simp only [Option.map_eq_some_iff] at hc
      obtain ⟨c0, h0, rfl⟩ := hc
      exact (h.cartridge c0 h0).writeRom _ _
    · exact h.cartridge
    · rename_i ho
      have hb := busOwner_cartridgeRam.mp ho
      intro c hc
      simp only [Option.map_eq_some_iff] at hc
      obtain ⟨c0, h0, rfl⟩ := hc
      exact (h.cartridge c0 h0).writeRam _ hb.1 hb.2
    · simp only [State.writeIo_cartridge]; exact h.cartridge
    · exact h.cartridge

/-- The invariant says nothing of the CPU but F's low nibble and the two execution-state booleans, and nothing of the cycles. -/
theorem State.Inv.setCpu {s : State} (h : s.Inv) (c : Cpu) (n : Nat) (hf : c.f &&& 0x0F = 0) (hh : c.halted = s.cpu.halted)
    (hs : c.stopped = s.cpu.stopped) : State.Inv { s with cpu := c, cycles := n } :=
  { h with flagsLow := hf, oneIdle := by rw [hh, hs]; exact h.oneIdle, frozen := by rw [hs]; exact h.frozen,
           frozenAcc := by rw [hs]; exact h.frozenAcc }

/-- Nor of the interrupt controller. -/
theorem State.Inv.setIrq {s : State} (h : s.Inv) (q : Irq) : State.Inv { s with irq := q } := { h with }

theorem State.Inv.effect {s t : State} (h : s.Inv) (he : Effect s t) : t.Inv := by
  induction he with
  | refl => exact h
  | reg r v _ ih => cases r <;> exact ih.setCpu _ _ ih.flagsLow rfl rfl
  | flags f _ ih => exact ih.setCpu _ _ (and_F0_low f.toByte) rfl rfl
  | pair p v _ ih => cases p <;> exact ih.setCpu _ _ ih.flagsLow rfl rfl
  | stackPair p v _ ih =>
    cases p
    · exact ih.setCpu _ _ ih.flagsLow rfl rfl
    · exact ih.setCpu _ _ ih.flagsLow rfl rfl
    · exact ih.setCpu _ _ ih.flagsLow rfl rfl
    · exact ih.setCpu _ _ (and_F0_low v.lo) rfl rfl
  | pc v _ ih => exact ih.setCpu _ _ ih.flagsLow rfl rfl
  | write a v _ ih => exact ih.memWrite a v

theorem State.Inv.push16 {s : State} (h : s.Inv) (v : Word) : (Machine.push16 v s).Inv := h.effect (Effect.refl.push16 v)

theorem State.Inv.setCycles {s : State} (h : s.Inv) (n : Nat) : State.Inv { s with cycles := n } := { h with }

theorem State.Inv.wakeChecks {s : State} (h : s.Inv) : (Machine.wakeChecks s).Inv := by
  rw [wakeChecks_eq]
  refine { h with flagsLow := h.flagsLow, oneIdle := ?_, frozen := ?_, frozenAcc := ?_ }
  · have := h.oneIdle
    simp only [Bool.and_eq_true]
    tauto
  · simp only [h.frozen]
    cases s.cpu.stopped <;> simp
  · intro hs
    simp only [Bool.and_eq_true] at hs
    exact h.frozenAcc hs.1

theorem State.Inv.dispatch {s : State} (h : s.Inv) (k : IrqSource) : (Machine.dispatch k s).Inv := by
  have hp := h.push16 s.cpu.pc
  rw [dispatch_eq]
  have hc : (Machine.push16 s.cpu.pc s).cpu.stopped = s.cpu.stopped := by rw [push16_cpu]
  exact
    { hp with
      flagsLow := h.flagsLow
      oneIdle := fun e => by cases e.1
      frozen := hp.frozen.trans hc
      frozenAcc := fun e => hp.frozenAcc (hc.trans e) }

theorem State.Inv.serviceInterrupts {s : State} (h : s.Inv) : (Machine.serviceInterrupts s).Inv := by
  unfold Machine.serviceInterrupts
  split
  · exact h
  · split
    · exact h
    · exact h.dispatch _

theorem State.Inv.cpuPrelude {s : State} (h : s.Inv) : (Machine.cpuPrelude s).Inv :=
  (h.setCycles 0).wakeChecks.serviceInterrupts

theorem State.Inv.updateState {s : State} (h : s.Inv) (b : Bool) : (Machine.updateState b s).Inv := by
  unfold Machine.updateState
  split
  · exact h.setIrq _
  · exact h

/-- Executing an instruction on a running CPU keeps the invariant. -/
theorem State.Inv.exec {s t : State} (h : s.Inv) (hi : s.idle = false) (i : Instr) (he : Machine.exec i s = .next t) : t.Inv := by
  simp only [State.idle, Bool.or_eq_false_iff] at hi
  rw [exec_eq] at he
  generalize hf : i.form = f at he
  by_cases hsys : isSystem f = false
  · obtain ⟨u, hu, e⟩ := formMeaning_effect f s hsys
    rw [e] at he
    cases he
    exact (h.effect hu).setCycles _
  · cases f
    case halt =>
      cases he
      exact { h with flagsLow := h.flagsLow, oneIdle := fun e => (Bool.false_ne_true (hi.2.symm.trans e.2)).elim,
                     frozen := h.frozen, frozenAcc := h.frozenAcc }
    case stop n =>
      cases he
      exact { h with flagsLow := h.flagsLow, oneIdle := fun e => (Bool.false_ne_true (hi.1.symm.trans e.1)).elim, frozen := rfl,
                     frozenAcc := fun _ => rfl, divAcc := Nat.zero_lt_succ _ }
    case di => cases he; exact { h with }
    case ei => cases he; exact { h with }
    case reti => cases he; exact { h with }
    case illegal k => cases he
    all_goals exact absurd rfl hsys

theorem timaPeriod_pos (tac : BitVec 3) : 0 < timaPeriod tac ∧ timaPeriod tac ≤ 1024 := by revert tac; decide

theorem State.Inv.timerTick {s : State} (h : s.Inv) (c : Nat) : (Machine.timerTick c s).Inv := by
  have hd : (Machine.timerTick c s).timer.divAcc = (divTick c s).timer.divAcc := by
    unfold Machine.timerTick timaTick
    split
    · rw [timaIncrements_eq]
    · rfl
  have hdiv : (Machine.timerTick c s).timer.divAcc < 256 ∧ (s.cpu.stopped = true → (Machine.timerTick c s).timer.divAcc = 0) := by
    rw [hd]
    unfold divTick
    split
    · exact ⟨h.divAcc, h.frozenAcc⟩
    · rename_i hf
      refine ⟨Nat.mod_lt _ (by decide), fun e => ?_⟩
      rw [h.frozen, e] at hf
      exact absurd rfl hf
  have ht : (Machine.timerTick c s).timer.timaAcc < 1024 := by
    unfold Machine.timerTick timaTick
    split
    · rw [timaIncrements_eq]
      have := timaPeriod_pos (divTick c s).timer.tac
      exact lt_of_lt_of_le (Nat.mod_lt _ this.1) this.2
    · rw [divTick_eq]
      exact h.timaAcc
  rw [timerTick_eq]
  exact { h with frozenAcc := hdiv.2, divAcc := hdiv.1, timaAcc := ht }

@[simp] theorem signalStatIf_ppu (k : Nat) (s : State) : (signalStatIf k s).ppu = s.ppu := by unfold signalStatIf; split <;> rfl
@[simp] theorem setMode_ppu (m : PpuMode) (s : State) : (setMode m s).ppu = { s.ppu with mode := m } := rfl
@[simp] theorem setLy_ppu (v : Byte) (s : State) :
    (setLy v s).ppu = { s.ppu with ly := v, coincidence := decide (v = s.ppu.lyc) } := by
  unfold setLy lycCheck
  dsimp only
  split <;> simp

/-- The PPU's own state after a transition. -/
theorem ppuTransition_ppu (s : State) :
    (ppuTransition s).ppu =
      match s.ppu.mode with
      | .oamSearch => { (renderLine s.ppu.ly.toNat s).ppu with mode := .transfer }
      | .transfer => { s.ppu with mode := .hblank }
      | .hblank => { s.ppu with
          ly := s.ppu.ly + 1, coincidence := decide (s.ppu.ly + 1 = s.ppu.lyc),
          mode := if (s.ppu.ly + 1).toNat ≤ 143 then .oamSearch else .vblank }
      | .vblank =>
        if s.ppu.ly = 153 then { s.ppu with ly := 0, coincidence := decide (0 = s.ppu.lyc), mode := .oamSearch }
        else { s.ppu with ly := s.ppu.ly + 1, coincidence := decide (s.ppu.ly + 1 = s.ppu.lyc) } := by
  unfold ppuTransition
  cases hm : s.ppu.mode
  · simp only [endHblank, setLy_ppu]
    split <;> simp
  · simp only [endVblankLine]
    split <;> simp [hm]
  · simp only [endOamSearch, renderLine]
    split <;> rfl
  · simp [endTransfer]

theorem State.Inv.ppuTicked {s t : State} (h : s.Inv) (p : PpuTicked s t) (hd : t.ppu.dots < dotBudget t.ppu.mode)
    (hl : lineMatchesMode t.ppu.mode t.ppu.ly.toNat)
    (hf : Sparse.wf blankRow t.ppu.framebuffer = true ∧ ∀ r ∈ t.ppu.framebuffer, r.1 < 144 ∧ r.2.length = 256) : t.Inv :=
  { flagsLow := by rw [p.cpu]; exact h.flagsLow
    oneIdle := by rw [p.cpu]; exact h.oneIdle
    frozen := by rw [p.cpu, p.timer]; exact h.frozen
    frozenAcc := by rw [p.cpu, p.timer]; exact h.frozenAcc
    divAcc := by rw [p.timer]; exact h.divAcc
    timaAcc := by rw [p.timer]; exact h.timaAcc
    dots := hd, line := hl, framebuffer := hf
    vram := by rw [p.vram]; exact h.vram
    ioPlain := by rw [p.ioPlain]; exact h.ioPlain
    ram := by rw [p.ram]; exact h.ram
    cartridge := by rw [p.cartridge]; exact h.cartridge
    fault := by rw [p.fault]; exact h.fault }

/-- The part of the invariant that a transition keeps whatever the dots are. -/
def PpuOk (p : Ppu) : Prop :=
  lineMatchesMode p.mode p.ly.toNat ∧
    Sparse.wf blankRow p.framebuffer = true ∧ ∀ r ∈ p.framebuffer, r.1 < 144 ∧ r.2.length = 256

theorem renderLine_ok (ly : Nat) {s : State}
    (h : Sparse.wf blankRow s.ppu.framebuffer = true ∧ ∀ r ∈ s.ppu.framebuffer, r.1 < 144 ∧ r.2.length = 256) :
    Sparse.wf blankRow (renderLine ly s).ppu.framebuffer = true ∧
      ∀ r ∈ (renderLine ly s).ppu.framebuffer, r.1 < 144 ∧ r.2.length = 256 := by
  unfold renderLine
  split
  · rename_i hl
    refine ⟨Sparse.wf_set _ h.1 _ _, fun r hr => ?_⟩
    rcases Sparse.mem_set _ _ _ _ hr with e | e
    · exact h.2 r e
    · subst e
      exact ⟨hl, by simp⟩
  · exact h

theorem PpuOk.transition {s : State} (h : PpuOk s.ppu) : PpuOk (ppuTransition s).ppu := by
  obtain ⟨hl, hf⟩ := h
  rw [ppuTransition_ppu]
  split
  · rename_i hm
    rw [hm] at hl
    have hly : (renderLine s.ppu.ly.toNat s).ppu.ly = s.ppu.ly := by unfold renderLine; split <;> rfl
    exact ⟨by simp only [lineMatchesMode, hly] at hl ⊢; exact hl, renderLine_ok _ hf⟩
  · rename_i hm
    rw [hm] at hl
    exact ⟨hl, hf⟩
  · rename_i hm
    rw [hm] at hl
    refine ⟨?_, hf⟩
    simp only [lineMatchesMode] at hl ⊢
    have : (s.ppu.ly + 1).toNat = s.ppu.ly.toNat + 1 := by bv_omega
    by_cases hle : (s.ppu.ly + 1).toNat ≤ 143
    · simp only [if_pos hle]; exact hle
    · simp only [if_neg hle]; omega
  · rename_i hm
    rw [hm] at hl
    split
    · exact ⟨by simp [lineMatchesMode], hf⟩
    · rename_i hne
      refine ⟨?_, hf⟩
      simp only [hm, lineMatchesMode] at hl ⊢
      have : s.ppu.ly.toNat ≠ 153 := fun e => hne (BitVec.eq_of_toNat_eq e)
      bv_omega

theorem ppuTransition_dots (s : State) : (ppuTransition s).ppu.dots = s.ppu.dots := by
  rw [ppuTransition_ppu]
  split
  · unfold renderLine; split <;> rfl
  · rfl
  · rfl
  · split <;> rfl

theorem dotBudget_pos (m : PpuMode) : 0 < dotBudget m := by cases m <;> decide

theorem PpuOk.loop (n : Nat) {s : State} (h : PpuOk s.ppu) (hn : s.ppu.dots ≤ n) :
    PpuOk (ppuLoop n s).ppu ∧ (ppuLoop n s).ppu.dots < dotBudget (ppuLoop n s).ppu.mode := by
  induction n generalizing s with
  | zero => exact ⟨h, lt_of_le_of_lt hn (dotBudget_pos _)⟩
  | succ n ih =>
    unfold ppuLoop
    split
    · rename_i hlt
      exact ⟨h, hlt⟩
    · rename_i hge
      refine ih (PpuOk.transition (s := { s with ppu := { s.ppu with dots := _ } }) h) ?_
      unfold ppuRound
      rw [ppuTransition_dots]
      have := dotBudget_pos s.ppu.mode
      simp only
      omega

theorem State.Inv.ppuTick {s : State} (h : s.Inv) (c : Nat) : (Machine.ppuTick c s).Inv := by
  have hp := PpuTicked.ppuTick c s
  unfold Machine.ppuTick at hp ⊢
  split
  · rename_i hl
    rw [if_pos hl] at hp
    have ho : PpuOk s.ppu := ⟨h.line, h.framebuffer⟩
    have := PpuOk.loop (s.ppu.dots + c) (s := { s with ppu := { s.ppu with dots := s.ppu.dots + c } }) ho (le_refl _)
    exact h.ppuTicked hp this.2 this.1.1 this.1.2
  · exact h

end Sys2Proof.Machine
end

