-- ==== Sys2Proof/Laws/Values.lean ====
section
/-! SUPPORT. The value of each flag computation and each result function, in the unbounded integers the claims are written in. -/

namespace Sys2Proof.Machine

/-! ### Flags of F -/

theorem State.flags_z (s : State) : s.flags.z = s.cpu.f.getLsbD 7 := rfl
theorem State.flags_c (s : State) : s.flags.c = s.cpu.f.getLsbD 4 := rfl

/-! ### 8-bit arithmetic -/

theorem add8_val (a b : Byte) (c : Bool) :
    add8 a b c = (BitVec.ofNat 8 (a.toNat + b.toNat + c.toNat), sumFlags a.toNat b.toNat c.toNat) := by
  simp only [add8, sumFlags, Prod.mk.injEq, Flags.mk.injEq, true_and, and_true]
  congr 1
  simp [← BitVec.toNat_inj]

theorem sub8_val (a b : Byte) (c : Bool) :
    sub8 a b c =
      (BitVec.ofInt 8 ((a.toNat : Int) - b.toNat - c.toNat), differenceFlags a.toNat b.toNat c.toNat) := by
  simp only [sub8, differenceFlags, Prod.mk.injEq, Flags.mk.injEq, true_and, and_true]
  congr 1
  rw [eq_iff_iff, ← BitVec.toNat_inj, BitVec.toNat_ofInt]
  simp
  omega

theorem inc8_val (v : Byte) (s : State) :
    inc8 v s.flags = (v + 1, ⟨decide (v = 0xFF), false, decide (v.toNat % 16 = 15), s.cpu.f.getLsbD 4⟩) := by
  simp only [inc8, State.flags, Flags.ofByte, Prod.mk.injEq, Flags.mk.injEq, true_and, and_true]
  revert v
  decide

theorem dec8_val (v : Byte) (s : State) :
    dec8 v s.flags = (v - 1, ⟨decide (v = 0x01), true, decide (v.toNat % 16 = 0), s.cpu.f.getLsbD 4⟩) := by
  simp only [dec8, State.flags, Flags.ofByte, Prod.mk.injEq, Flags.mk.injEq, true_and, and_true]
  revert v
  decide

theorem daa_val (a : Byte) (f : Flags) :
    daa a f =
      (BitVec.ofInt 8 (daaValue a.toNat f).1,
        ⟨decide ((daaValue a.toNat f).1 % 256 = 0), f.n, false, (daaValue a.toNat f).2⟩) := by
  obtain ⟨z, n, h, c⟩ := f
  cases z <;> cases n <;> cases h <;> cases c <;> revert a <;> decide

theorem cpl_val (a : Byte) : a ^^^ 0xFF = BitVec.ofNat 8 (255 - a.toNat) := by
  revert a
  decide

/-- Adding a sign-extended byte to a 16-bit value. -/
theorem Word.add_signExtend (w : Word) (e : Byte) : w + e.signExtend 16 = BitVec.ofInt 16 (w.toNat + e.toInt) := by
  apply BitVec.eq_of_toInt_eq
  rw [BitVec.toInt_add, BitVec.toInt_ofInt, BitVec.toInt_signExtend_of_le (by decide), BitVec.toInt_eq_toNat_bmod w]
  simp

/-! ### Shifts and bits -/

theorem shiftResult_val (op : ShiftOp) (v : Byte) (c : Bool) :
    shiftResult op v c =
      (BitVec.ofNat 8 (shiftValue op v.toNat c.toNat).1, decide ((shiftValue op v.toNat c.toNat).2 = 1)) := by
  cases op <;> cases c <;> revert v <;> decide

theorem shiftValue_eq_zero (op : ShiftOp) (v : Byte) (c : Bool) :
    decide (BitVec.ofNat 8 (shiftValue op v.toNat c.toNat).1 = 0) = decide ((shiftValue op v.toNat c.toNat).1 = 0) := by
  cases op <;> cases c <;> revert v <;> decide

theorem shiftFlags_val (op : ShiftOp) (v : Byte) (c : Bool) :
    shiftFlags (shiftResult op v c).1 (shiftResult op v c).2 = shiftedFlags (shiftValue op v.toNat c.toNat) := by
  rw [shiftResult_val]
  simp only [shiftFlags, shiftedFlags, shiftValue_eq_zero]

theorem bitTestFlags_val (v : Byte) (b : Fin 8) (s : State) :
    bitTestFlags v b s.flags = ⟨decide (bitOf v b = 0), false, true, s.cpu.f.getLsbD 4⟩ := by
  simp only [bitTestFlags, State.flags, Flags.ofByte, Flags.mk.injEq, and_true]
  revert v b
  decide

theorem clearBit_val (v : Byte) (b : Fin 8) :
    v &&& ~~~(1#8 <<< b.val) = BitVec.ofNat 8 (v.toNat - bitOf v b * 2 ^ b.val) := by
  revert v b
  decide

theorem setBit_val (v : Byte) (b : Fin 8) :
    v ||| (1#8 <<< b.val) = BitVec.ofNat 8 (v.toNat + (1 - bitOf v b) * 2 ^ b.val) := by
  revert v b
  decide

/-! ### The Timer and the Bus -/

theorem timaPeriod_val (t : BitVec 3) : timaPeriod t = [1024, 16, 64, 256].getD (t.toNat % 4) 0 := by
  revert t
  decide

theorem State.readP1_val (s : State) :
    s.readP1 = 0xC0 ||| (s.joypad.select.zeroExtend 8 <<< 4) ||| s.joypad.input.zeroExtend 8 := by
  unfold State.readP1
  generalize s.joypad.select = x
  generalize s.joypad.input = y
  revert x y
  decide

theorem State.readStat_val (s : State) :
    s.readStat =
      0x80 ||| (s.ppu.statEn.zeroExtend 8 <<< 3) ||| (if s.ppu.coincidence then 4 else 0) |||
        s.ppu.mode.bits.zeroExtend 8 := by
  unfold State.readStat
  generalize s.ppu.statEn = x
  generalize s.ppu.coincidence = c
  generalize s.ppu.mode.bits = m
  revert x c m
  decide

/-! ### Read-modify-write of the byte at HL -/

theorem RewritesAtHl.of_memWrite (v : Byte) (f : Flags) (s : State) (n : Nat) :
    RewritesAtHl v f s { (memWrite s.hl v s).setFlags f with cycles := n } := by
  refine ⟨.of_memWrite _ _ _ _ _ (by simp) (by simp), .setFlags .., fun r _ => ?_, ?_⟩
  · cases r <;> simp [State.reg, State.setFlags, State.setF]
  · constructor <;> simp [State.setFlags, State.setF]

/-- A store that changes no register. -/
theorem StoresByte.plain (a : Word) (v : Byte) (s : State) (n : Nat) :
    StoresByte a v s { memWrite a v s with cycles := n } ∧ ({ memWrite a v s with cycles := n } : State).cpu = s.cpu := by
  have h := StoresByte.of_memWrite a v s s.cpu n rfl rfl
  rw [State.with_own_cpu (by simp)] at h
  exact ⟨h, by simp⟩

end Sys2Proof.Machine
end

