-- ==== Sys2Proof/Tests/Slice0.lean ====
section
/-! SUPPORT. The model's own tests. Every expected value is the spec's: the encodings of opcode_table.json, the worked vectors
of 95_test_vectors.md (named by their ids), the reset table of R501. The last part shows, for every statement with
hypotheses, states and operands that meet them. -/

namespace Sys2Proof.Tests

open Sys2Proof.Machine

/-! ### Well-formedness -/

/-- PREFIX CB is no instruction on its own (R128), so it is refused; the row its second byte selects is accepted. -/
theorem test_wf_refuses_prefix_CB : Instr.wf (.prefix_CB 0x7C) = false := by decide

theorem test_wf_accepts_cb_row : Instr.wf .bit_7_H = true ∧ Instr.wf (.stop 0x5A) = true ∧ Instr.wf .illegal_D3 = true := by
  decide

/-! ### Decoding: every row's word, bit by bit from the encoding column of opcode_table.json -/

/-- The word decodes to the instruction, with nothing left over, and the instruction encodes to the word. -/
def reads (word : List Byte) (i : Instr) : Bool :=
  match decode word with
  | .ok (j, []) => decide (j = i) && decide (encode i = word)
  | _ => false

theorem test_decode_0x :
    (reads [0b00000000] .nop &&
      reads [0b00000001, 0x34, 0x12] (.ld_BC_nn 0x1234) &&
      reads [0b00000010] .ld_atBC_A &&
      reads [0b00000011] .inc_BC &&
      reads [0b00000100] .inc_B &&
      reads [0b00000101] .dec_B &&
      reads [0b00000110, 0xA5] (.ld_B_n 0xA5) &&
      reads [0b00000111] .rlca &&
      reads [0b00001000, 0x34, 0x12] (.ld_at_nn_SP 0x1234) &&
      reads [0b00001001] .add_HL_BC &&
      reads [0b00001010] .ld_A_atBC &&
      reads [0b00001011] .dec_BC &&
      reads [0b00001100] .inc_C &&
      reads [0b00001101] .dec_C &&
      reads [0b00001110, 0xA5] (.ld_C_n 0xA5) &&
      reads [0b00001111] .rrca) = true := by decide

theorem test_decode_1x :
    (reads [0b00010000, 0xA5] (.stop 0xA5) &&
      reads [0b00010001, 0x34, 0x12] (.ld_DE_nn 0x1234) &&
      reads [0b00010010] .ld_atDE_A &&
      reads [0b00010011] .inc_DE &&
      reads [0b00010100] .inc_D &&
      reads [0b00010101] .dec_D &&
      reads [0b00010110, 0xA5] (.ld_D_n 0xA5) &&
      reads [0b00010111] .rla &&
      reads [0b00011000, 0xA5] (.jr_e 0xA5) &&
      reads [0b00011001] .add_HL_DE &&
      reads [0b00011010] .ld_A_atDE &&
      reads [0b00011011] .dec_DE &&
      reads [0b00011100] .inc_E &&
      reads [0b00011101] .dec_E &&
      reads [0b00011110, 0xA5] (.ld_E_n 0xA5) &&
      reads [0b00011111] .rra) = true := by decide

theorem test_decode_2x :
    (reads [0b00100000, 0xA5] (.jr_NZ_e 0xA5) &&
      reads [0b00100001, 0x34, 0x12] (.ld_HL_nn 0x1234) &&
      reads [0b00100010] .ld_atHLi_A &&
      reads [0b00100011] .inc_HL &&
      reads [0b00100100] .inc_H &&
      reads [0b00100101] .dec_H &&
      reads [0b00100110, 0xA5] (.ld_H_n 0xA5) &&
      reads [0b00100111] .daa &&
      reads [0b00101000, 0xA5] (.jr_Z_e 0xA5) &&
      reads [0b00101001] .add_HL_HL &&
      reads [0b00101010] .ld_A_atHLi &&
      reads [0b00101011] .dec_HL &&
      reads [0b00101100] .inc_L &&
      reads [0b00101101] .dec_L &&
      reads [0b00101110, 0xA5] (.ld_L_n 0xA5) &&
      reads [0b00101111] .cpl) = true := by decide

theorem test_decode_3x :
    (reads [0b00110000, 0xA5] (.jr_NC_e 0xA5) &&
      reads [0b00110001, 0x34, 0x12] (.ld_SP_nn 0x1234) &&
      reads [0b00110010] .ld_atHLd_A &&
      reads [0b00110011] .inc_SP &&
      reads [0b00110100] .inc_atHL &&
      reads [0b00110101] .dec_atHL &&
      reads [0b00110110, 0xA5] (.ld_atHL_n 0xA5) &&
      reads [0b00110111] .scf &&
      reads [0b00111000, 0xA5] (.jr_C_e 0xA5) &&
      reads [0b00111001] .add_HL_SP &&
      reads [0b00111010] .ld_A_atHLd &&
      reads [0b00111011] .dec_SP &&
      reads [0b00111100] .inc_A &&
      reads [0b00111101] .dec_A &&
      reads [0b00111110, 0xA5] (.ld_A_n 0xA5) &&
      reads [0b00111111] .ccf) = true := by decide

theorem test_decode_4x :
    (reads [0b01000000] .ld_B_B &&
      reads [0b01000001] .ld_B_C &&
      reads [0b01000010] .ld_B_D &&
      reads [0b01000011] .ld_B_E &&
      reads [0b01000100] .ld_B_H &&
      reads [0b01000101] .ld_B_L &&
      reads [0b01000110] .ld_B_atHL &&
      reads [0b01000111] .ld_B_A &&
      reads [0b01001000] .ld_C_B &&
      reads [0b01001001] .ld_C_C &&
      reads [0b01001010] .ld_C_D &&
      reads [0b01001011] .ld_C_E &&
      reads [0b01001100] .ld_C_H &&
      reads [0b01001101] .ld_C_L &&
      reads [0b01001110] .ld_C_atHL &&
      reads [0b01001111] .ld_C_A) = true := by decide

theorem test_decode_5x :
    (reads [0b01010000] .ld_D_B &&
      reads [0b01010001] .ld_D_C &&
      reads [0b01010010] .ld_D_D &&
      reads [0b01010011] .ld_D_E &&
      reads [0b01010100] .ld_D_H &&
      reads [0b01010101] .ld_D_L &&
      reads [0b01010110] .ld_D_atHL &&
      reads [0b01010111] .ld_D_A &&
      reads [0b01011000] .ld_E_B &&
      reads [0b01011001] .ld_E_C &&
      reads [0b01011010] .ld_E_D &&
      reads [0b01011011] .ld_E_E &&
      reads [0b01011100] .ld_E_H &&
      reads [0b01011101] .ld_E_L &&
      reads [0b01011110] .ld_E_atHL &&
      reads [0b01011111] .ld_E_A) = true := by decide

theorem test_decode_6x :
    (reads [0b01100000] .ld_H_B &&
      reads [0b01100001] .ld_H_C &&
      reads [0b01100010] .ld_H_D &&
      reads [0b01100011] .ld_H_E &&
      reads [0b01100100] .ld_H_H &&
      reads [0b01100101] .ld_H_L &&
      reads [0b01100110] .ld_H_atHL &&
      reads [0b01100111] .ld_H_A &&
      reads [0b01101000] .ld_L_B &&
      reads [0b01101001] .ld_L_C &&
      reads [0b01101010] .ld_L_D &&
      reads [0b01101011] .ld_L_E &&
      reads [0b01101100] .ld_L_H &&
      reads [0b01101101] .ld_L_L &&
      reads [0b01101110] .ld_L_atHL &&
      reads [0b01101111] .ld_L_A) = true := by decide

theorem test_decode_7x :
    (reads [0b01110000] .ld_atHL_B &&
      reads [0b01110001] .ld_atHL_C &&
      reads [0b01110010] .ld_atHL_D &&
      reads [0b01110011] .ld_atHL_E &&
      reads [0b01110100] .ld_atHL_H &&
      reads [0b01110101] .ld_atHL_L &&
      reads [0b01110110] .halt &&
      reads [0b01110111] .ld_atHL_A &&
      reads [0b01111000] .ld_A_B &&
      reads [0b01111001] .ld_A_C &&
      reads [0b01111010] .ld_A_D &&
      reads [0b01111011] .ld_A_E &&
      reads [0b01111100] .ld_A_H &&
      reads [0b01111101] .ld_A_L &&
      reads [0b01111110] .ld_A_atHL &&
      reads [0b01111111] .ld_A_A) = true := by decide

theorem test_decode_8x :
    (reads [0b10000000] .add_A_B &&
      reads [0b10000001] .add_A_C &&
      reads [0b10000010] .add_A_D &&
      reads [0b10000011] .add_A_E &&
      reads [0b10000100] .add_A_H &&
      reads [0b10000101] .add_A_L &&
      reads [0b10000110] .add_A_atHL &&
      reads [0b10000111] .add_A_A &&
      reads [0b10001000] .adc_A_B &&
      reads [0b10001001] .adc_A_C &&
      reads [0b10001010] .adc_A_D &&
      reads [0b10001011] .adc_A_E &&
      reads [0b10001100] .adc_A_H &&
      reads [0b10001101] .adc_A_L &&
      reads [0b10001110] .adc_A_atHL &&
      reads [0b10001111] .adc_A_A) = true := by decide

theorem test_decode_9x :
    (reads [0b10010000] .sub_B &&
      reads [0b10010001] .sub_C &&
      reads [0b10010010] .sub_D &&
      reads [0b10010011] .sub_E &&
      reads [0b10010100] .sub_H &&
      reads [0b10010101] .sub_L &&
      reads [0b10010110] .sub_atHL &&
      reads [0b10010111] .sub_A &&
      reads [0b10011000] .sbc_A_B &&
      reads [0b10011001] .sbc_A_C &&
      reads [0b10011010] .sbc_A_D &&
      reads [0b10011011] .sbc_A_E &&
      reads [0b10011100] .sbc_A_H &&
      reads [0b10011101] .sbc_A_L &&
      reads [0b10011110] .sbc_A_atHL &&
      reads [0b10011111] .sbc_A_A) = true := by decide

theorem test_decode_Ax :
    (reads [0b10100000] .and_B &&
      reads [0b10100001] .and_C &&
      reads [0b10100010] .and_D &&
      reads [0b10100011] .and_E &&
      reads [0b10100100] .and_H &&
      reads [0b10100101] .and_L &&
      reads [0b10100110] .and_atHL &&
      reads [0b10100111] .and_A &&
      reads [0b10101000] .xor_B &&
      reads [0b10101001] .xor_C &&
      reads [0b10101010] .xor_D &&
      reads [0b10101011] .xor_E &&
      reads [0b10101100] .xor_H &&
      reads [0b10101101] .xor_L &&
      reads [0b10101110] .xor_atHL &&
      reads [0b10101111] .xor_A) = true := by decide

theorem test_decode_Bx :
    (reads [0b10110000] .or_B &&
      reads [0b10110001] .or_C &&
      reads [0b10110010] .or_D &&
      reads [0b10110011] .or_E &&
      reads [0b10110100] .or_H &&
      reads [0b10110101] .or_L &&
      reads [0b10110110] .or_atHL &&
      reads [0b10110111] .or_A &&
      reads [0b10111000] .cp_B &&
      reads [0b10111001] .cp_C &&
      reads [0b10111010] .cp_D &&
      reads [0b10111011] .cp_E &&
      reads [0b10111100] .cp_H &&
      reads [0b10111101] .cp_L &&
      reads [0b10111110] .cp_atHL &&
      reads [0b10111111] .cp_A) = true := by decide

theorem test_decode_Cx :
    (reads [0b11000000] .ret_NZ &&
      reads [0b11000001] .pop_BC &&
      reads [0b11000010, 0x34, 0x12] (.jp_NZ_nn 0x1234) &&
      reads [0b11000011, 0x34, 0x12] (.jp_nn 0x1234) &&
      reads [0b11000100, 0x34, 0x12] (.call_NZ_nn 0x1234) &&
      reads [0b11000101] .push_BC &&
      reads [0b11000110, 0xA5] (.add_A_n 0xA5) &&
      reads [0b11000111] .rst_00 &&
      reads [0b11001000] .ret_Z &&
      reads [0b11001001] .ret &&
      reads [0b11001010, 0x34, 0x12] (.jp_Z_nn 0x1234) &&
      reads [0b11001100, 0x34, 0x12] (.call_Z_nn 0x1234) &&
      reads [0b11001101, 0x34, 0x12] (.call_nn 0x1234) &&
      reads [0b11001110, 0xA5] (.adc_A_n 0xA5) &&
      reads [0b11001111] .rst_08) = true := by decide

theorem test_decode_Dx :
    (reads [0b11010000] .ret_NC &&
      reads [0b11010001] .pop_DE &&
      reads [0b11010010, 0x34, 0x12] (.jp_NC_nn 0x1234) &&
      reads [0b11010011] .illegal_D3 &&
      reads [0b11010100, 0x34, 0x12] (.call_NC_nn 0x1234) &&
      reads [0b11010101] .push_DE &&
      reads [0b11010110, 0xA5] (.sub_n 0xA5) &&
      reads [0b11010111] .rst_10 &&
      reads [0b11011000] .ret_C &&
      reads [0b11011001] .reti &&
      reads [0b11011010, 0x34, 0x12] (.jp_C_nn 0x1234) &&
      reads [0b11011011] .illegal_DB &&
      reads [0b11011100, 0x34, 0x12] (.call_C_nn 0x1234) &&
      reads [0b11011101] .illegal_DD &&
      reads [0b11011110, 0xA5] (.sbc_A_n 0xA5) &&
      reads [0b11011111] .rst_18) = true := by decide

theorem test_decode_Ex :
    (reads [0b11100000, 0xA5] (.ldh_at_n_A 0xA5) &&
      reads [0b11100001] .pop_HL &&
      reads [0b11100010] .ldh_atC_A &&
      reads [0b11100011] .illegal_E3 &&
      reads [0b11100100] .illegal_E4 &&
      reads [0b11100101] .push_HL &&
      reads [0b11100110, 0xA5] (.and_n 0xA5) &&
      reads [0b11100111] .rst_20 &&
      reads [0b11101000, 0xA5] (.add_SP_e 0xA5) &&
      reads [0b11101001] .jp_HL &&
      reads [0b11101010, 0x34, 0x12] (.ld_at_nn_A 0x1234) &&
      reads [0b11101011] .illegal_EB &&
      reads [0b11101100] .illegal_EC &&
      reads [0b11101101] .illegal_ED &&
      reads [0b11101110, 0xA5] (.xor_n 0xA5) &&
      reads [0b11101111] .rst_28) = true := by decide

theorem test_decode_Fx :
    (reads [0b11110000, 0xA5] (.ldh_A_at_n 0xA5) &&
      reads [0b11110001] .pop_AF &&
      reads [0b11110010] .ldh_A_atC &&
      reads [0b11110011] .di &&
      reads [0b11110100] .illegal_F4 &&
      reads [0b11110101] .push_AF &&
      reads [0b11110110, 0xA5] (.or_n 0xA5) &&
      reads [0b11110111] .rst_30 &&
      reads [0b11111000, 0xA5] (.ld_HL_SPe 0xA5) &&
      reads [0b11111001] .ld_SP_HL &&
      reads [0b11111010, 0x34, 0x12] (.ld_A_at_nn 0x1234) &&
      reads [0b11111011] .ei &&
      reads [0b11111100] .illegal_FC &&
      reads [0b11111101] .illegal_FD &&
      reads [0b11111110, 0xA5] (.cp_n 0xA5) &&
      reads [0b11111111] .rst_38) = true := by decide

theorem test_decode_cb_0x :
    (reads [0b11001011, 0b00000000] .rlc_B &&
      reads [0b11001011, 0b00000001] .rlc_C &&
      reads [0b11001011, 0b00000010] .rlc_D &&
      reads [0b11001011, 0b00000011] .rlc_E &&
      reads [0b11001011, 0b00000100] .rlc_H &&
      reads [0b11001011, 0b00000101] .rlc_L &&
      reads [0b11001011, 0b00000110] .rlc_atHL &&
      reads [0b11001011, 0b00000111] .rlc_A &&
      reads [0b11001011, 0b00001000] .rrc_B &&
      reads [0b11001011, 0b00001001] .rrc_C &&
      reads [0b11001011, 0b00001010] .rrc_D &&
      reads [0b11001011, 0b00001011] .rrc_E &&
      reads [0b11001011, 0b00001100] .rrc_H &&
      reads [0b11001011, 0b00001101] .rrc_L &&
      reads [0b11001011, 0b00001110] .rrc_atHL &&
      reads [0b11001011, 0b00001111] .rrc_A) = true := by decide

theorem test_decode_cb_1x :
    (reads [0b11001011, 0b00010000] .rl_B &&
      reads [0b11001011, 0b00010001] .rl_C &&
      reads [0b11001011, 0b00010010] .rl_D &&
      reads [0b11001011, 0b00010011] .rl_E &&
      reads [0b11001011, 0b00010100] .rl_H &&
      reads [0b11001011, 0b00010101] .rl_L &&
      reads [0b11001011, 0b00010110] .rl_atHL &&
      reads [0b11001011, 0b00010111] .rl_A &&
      reads [0b11001011, 0b00011000] .rr_B &&
      reads [0b11001011, 0b00011001] .rr_C &&
      reads [0b11001011, 0b00011010] .rr_D &&
      reads [0b11001011, 0b00011011] .rr_E &&
      reads [0b11001011, 0b00011100] .rr_H &&
      reads [0b11001011, 0b00011101] .rr_L &&
      reads [0b11001011, 0b00011110] .rr_atHL &&
      reads [0b11001011, 0b00011111] .rr_A) = true := by decide

theorem test_decode_cb_2x :
    (reads [0b11001011, 0b00100000] .sla_B &&
      reads [0b11001011, 0b00100001] .sla_C &&
      reads [0b11001011, 0b00100010] .sla_D &&
      reads [0b11001011, 0b00100011] .sla_E &&
      reads [0b11001011, 0b00100100] .sla_H &&
      reads [0b11001011, 0b00100101] .sla_L &&
      reads [0b11001011, 0b00100110] .sla_atHL &&
      reads [0b11001011, 0b00100111] .sla_A &&
      reads [0b11001011, 0b00101000] .sra_B &&
      reads [0b11001011, 0b00101001] .sra_C &&
      reads [0b11001011, 0b00101010] .sra_D &&
      reads [0b11001011, 0b00101011] .sra_E &&
      reads [0b11001011, 0b00101100] .sra_H &&
      reads [0b11001011, 0b00101101] .sra_L &&
      reads [0b11001011, 0b00101110] .sra_atHL &&
      reads [0b11001011, 0b00101111] .sra_A) = true := by decide

theorem test_decode_cb_3x :
    (reads [0b11001011, 0b00110000] .swap_B &&
      reads [0b11001011, 0b00110001] .swap_C &&
      reads [0b11001011, 0b00110010] .swap_D &&
      reads [0b11001011, 0b00110011] .swap_E &&
      reads [0b11001011, 0b00110100] .swap_H &&
      reads [0b11001011, 0b00110101] .swap_L &&
      reads [0b11001011, 0b00110110] .swap_atHL &&
      reads [0b11001011, 0b00110111] .swap_A &&
      reads [0b11001011, 0b00111000] .srl_B &&
      reads [0b11001011, 0b00111001] .srl_C &&
      reads [0b11001011, 0b00111010] .srl_D &&
      reads [0b11001011, 0b00111011] .srl_E &&
      reads [0b11001011, 0b00111100] .srl_H &&
      reads [0b11001011, 0b00111101] .srl_L &&
      reads [0b11001011, 0b00111110] .srl_atHL &&
      reads [0b11001011, 0b00111111] .srl_A) = true := by decide

theorem test_decode_cb_4x :
    (reads [0b11001011, 0b01000000] .bit_0_B &&
      reads [0b11001011, 0b01000001] .bit_0_C &&
      reads [0b11001011, 0b01000010] .bit_0_D &&
      reads [0b11001011, 0b01000011] .bit_0_E &&
      reads [0b11001011, 0b01000100] .bit_0_H &&
      reads [0b11001011, 0b01000101] .bit_0_L &&
      reads [0b11001011, 0b01000110] .bit_0_atHL &&
      reads [0b11001011, 0b01000111] .bit_0_A &&
      reads [0b11001011, 0b01001000] .bit_1_B &&
      reads [0b11001011, 0b01001001] .bit_1_C &&
      reads [0b11001011, 0b01001010] .bit_1_D &&
      reads [0b11001011, 0b01001011] .bit_1_E &&
      reads [0b11001011, 0b01001100] .bit_1_H &&
      reads [0b11001011, 0b01001101] .bit_1_L &&
      reads [0b11001011, 0b01001110] .bit_1_atHL &&
      reads [0b11001011, 0b01001111] .bit_1_A) = true := by decide

theorem test_decode_cb_5x :
    (reads [0b11001011, 0b01010000] .bit_2_B &&
      reads [0b11001011, 0b01010001] .bit_2_C &&
      reads [0b11001011, 0b01010010] .bit_2_D &&
      reads [0b11001011, 0b01010011] .bit_2_E &&
      reads [0b11001011, 0b01010100] .bit_2_H &&
      reads [0b11001011, 0b01010101] .bit_2_L &&
      reads [0b11001011, 0b01010110] .bit_2_atHL &&
      reads [0b11001011, 0b01010111] .bit_2_A &&
      reads [0b11001011, 0b01011000] .bit_3_B &&
      reads [0b11001011, 0b01011001] .bit_3_C &&
      reads [0b11001011, 0b01011010] .bit_3_D &&
      reads [0b11001011, 0b01011011] .bit_3_E &&
      reads [0b11001011, 0b01011100] .bit_3_H &&
      reads [0b11001011, 0b01011101] .bit_3_L &&
      reads [0b11001011, 0b01011110] .bit_3_atHL &&
      reads [0b11001011, 0b01011111] .bit_3_A) = true := by decide

theorem test_decode_cb_6x :
    (reads [0b11001011, 0b01100000] .bit_4_B &&
      reads [0b11001011, 0b01100001] .bit_4_C &&
      reads [0b11001011, 0b01100010] .bit_4_D &&
      reads [0b11001011, 0b01100011] .bit_4_E &&
      reads [0b11001011, 0b01100100] .bit_4_H &&
      reads [0b11001011, 0b01100101] .bit_4_L &&
      reads [0b11001011, 0b01100110] .bit_4_atHL &&
      reads [0b11001011, 0b01100111] .bit_4_A &&
      reads [0b11001011, 0b01101000] .bit_5_B &&
      reads [0b11001011, 0b01101001] .bit_5_C &&
      reads [0b11001011, 0b01101010] .bit_5_D &&
      reads [0b11001011, 0b01101011] .bit_5_E &&
      reads [0b11001011, 0b01101100] .bit_5_H &&
      reads [0b11001011, 0b01101101] .bit_5_L &&
      reads [0b11001011, 0b01101110] .bit_5_atHL &&
      reads [0b11001011, 0b01101111] .bit_5_A) = true := by decide

theorem test_decode_cb_7x :
    (reads [0b11001011, 0b01110000] .bit_6_B &&
      reads [0b11001011, 0b01110001] .bit_6_C &&
      reads [0b11001011, 0b01110010] .bit_6_D &&
      reads [0b11001011, 0b01110011] .bit_6_E &&
      reads [0b11001011, 0b01110100] .bit_6_H &&
      reads [0b11001011, 0b01110101] .bit_6_L &&
      reads [0b11001011, 0b01110110] .bit_6_atHL &&
      reads [0b11001011, 0b01110111] .bit_6_A &&
      reads [0b11001011, 0b01111000] .bit_7_B &&
      reads [0b11001011, 0b01111001] .bit_7_C &&
      reads [0b11001011, 0b01111010] .bit_7_D &&
      reads [0b11001011, 0b01111011] .bit_7_E &&
      reads [0b11001011, 0b01111100] .bit_7_H &&
      reads [0b11001011, 0b01111101] .bit_7_L &&
      reads [0b11001011, 0b01111110] .bit_7_atHL &&
      reads [0b11001011, 0b01111111] .bit_7_A) = true := by decide

theorem test_decode_cb_8x :
    (reads [0b11001011, 0b10000000] .res_0_B &&
      reads [0b11001011, 0b10000001] .res_0_C &&
      reads [0b11001011, 0b10000010] .res_0_D &&
      reads [0b11001011, 0b10000011] .res_0_E &&
      reads [0b11001011, 0b10000100] .res_0_H &&
      reads [0b11001011, 0b10000101] .res_0_L &&
      reads [0b11001011, 0b10000110] .res_0_atHL &&
      reads [0b11001011, 0b10000111] .res_0_A &&
      reads [0b11001011, 0b10001000] .res_1_B &&
      reads [0b11001011, 0b10001001] .res_1_C &&
      reads [0b11001011, 0b10001010] .res_1_D &&
      reads [0b11001011, 0b10001011] .res_1_E &&
      reads [0b11001011, 0b10001100] .res_1_H &&
      reads [0b11001011, 0b10001101] .res_1_L &&
      reads [0b11001011, 0b10001110] .res_1_atHL &&
      reads [0b11001011, 0b10001111] .res_1_A) = true := by decide

theorem test_decode_cb_9x :
    (reads [0b11001011, 0b10010000] .res_2_B &&
      reads [0b11001011, 0b10010001] .res_2_C &&
      reads [0b11001011, 0b10010010] .res_2_D &&
      reads [0b11001011, 0b10010011] .res_2_E &&
      reads [0b11001011, 0b10010100] .res_2_H &&
      reads [0b11001011, 0b10010101] .res_2_L &&
      reads [0b11001011, 0b10010110] .res_2_atHL &&
      reads [0b11001011, 0b10010111] .res_2_A &&
      reads [0b11001011, 0b10011000] .res_3_B &&
      reads [0b11001011, 0b10011001] .res_3_C &&
      reads [0b11001011, 0b10011010] .res_3_D &&
      reads [0b11001011, 0b10011011] .res_3_E &&
      reads [0b11001011, 0b10011100] .res_3_H &&
      reads [0b11001011, 0b10011101] .res_3_L &&
      reads [0b11001011, 0b10011110] .res_3_atHL &&
      reads [0b11001011, 0b10011111] .res_3_A) = true := by decide

theorem test_decode_cb_Ax :
    (reads [0b11001011, 0b10100000] .res_4_B &&
      reads [0b11001011, 0b10100001] .res_4_C &&
      reads [0b11001011, 0b10100010] .res_4_D &&
      reads [0b11001011, 0b10100011] .res_4_E &&
      reads [0b11001011, 0b10100100] .res_4_H &&
      reads [0b11001011, 0b10100101] .res_4_L &&
      reads [0b11001011, 0b10100110] .res_4_atHL &&
      reads [0b11001011, 0b10100111] .res_4_A &&
      reads [0b11001011, 0b10101000] .res_5_B &&
      reads [0b11001011, 0b10101001] .res_5_C &&
      reads [0b11001011, 0b10101010] .res_5_D &&
      reads [0b11001011, 0b10101011] .res_5_E &&
      reads [0b11001011, 0b10101100] .res_5_H &&
      reads [0b11001011, 0b10101101] .res_5_L &&
      reads [0b11001011, 0b10101110] .res_5_atHL &&
      reads [0b11001011, 0b10101111] .res_5_A) = true := by decide

theorem test_decode_cb_Bx :
    (reads [0b11001011, 0b10110000] .res_6_B &&
      reads [0b11001011, 0b10110001] .res_6_C &&
      reads [0b11001011, 0b10110010] .res_6_D &&
      reads [0b11001011, 0b10110011] .res_6_E &&
      reads [0b11001011, 0b10110100] .res_6_H &&
      reads [0b11001011, 0b10110101] .res_6_L &&
      reads [0b11001011, 0b10110110] .res_6_atHL &&
      reads [0b11001011, 0b10110111] .res_6_A &&
      reads [0b11001011, 0b10111000] .res_7_B &&
      reads [0b11001011, 0b10111001] .res_7_C &&
      reads [0b11001011, 0b10111010] .res_7_D &&
      reads [0b11001011, 0b10111011] .res_7_E &&
      reads [0b11001011, 0b10111100] .res_7_H &&
      reads [0b11001011, 0b10111101] .res_7_L &&
      reads [0b11001011, 0b10111110] .res_7_atHL &&
      reads [0b11001011, 0b10111111] .res_7_A) = true := by decide

theorem test_decode_cb_Cx :
    (reads [0b11001011, 0b11000000] .set_0_B &&
      reads [0b11001011, 0b11000001] .set_0_C &&
      reads [0b11001011, 0b11000010] .set_0_D &&
      reads [0b11001011, 0b11000011] .set_0_E &&
      reads [0b11001011, 0b11000100] .set_0_H &&
      reads [0b11001011, 0b11000101] .set_0_L &&
      reads [0b11001011, 0b11000110] .set_0_atHL &&
      reads [0b11001011, 0b11000111] .set_0_A &&
      reads [0b11001011, 0b11001000] .set_1_B &&
      reads [0b11001011, 0b11001001] .set_1_C &&
      reads [0b11001011, 0b11001010] .set_1_D &&
      reads [0b11001011, 0b11001011] .set_1_E &&
      reads [0b11001011, 0b11001100] .set_1_H &&
      reads [0b11001011, 0b11001101] .set_1_L &&
      reads [0b11001011, 0b11001110] .set_1_atHL &&
      reads [0b11001011, 0b11001111] .set_1_A) = true := by decide

theorem test_decode_cb_Dx :
    (reads [0b11001011, 0b11010000] .set_2_B &&
      reads [0b11001011, 0b11010001] .set_2_C &&
      reads [0b11001011, 0b11010010] .set_2_D &&
      reads [0b11001011, 0b11010011] .set_2_E &&
      reads [0b11001011, 0b11010100] .set_2_H &&
      reads [0b11001011, 0b11010101] .set_2_L &&
      reads [0b11001011, 0b11010110] .set_2_atHL &&
      reads [0b11001011, 0b11010111] .set_2_A &&
      reads [0b11001011, 0b11011000] .set_3_B &&
      reads [0b11001011, 0b11011001] .set_3_C &&
      reads [0b11001011, 0b11011010] .set_3_D &&
      reads [0b11001011, 0b11011011] .set_3_E &&
      reads [0b11001011, 0b11011100] .set_3_H &&
      reads [0b11001011, 0b11011101] .set_3_L &&
      reads [0b11001011, 0b11011110] .set_3_atHL &&
      reads [0b11001011, 0b11011111] .set_3_A) = true := by decide

theorem test_decode_cb_Ex :
    (reads [0b11001011, 0b11100000] .set_4_B &&
      reads [0b11001011, 0b11100001] .set_4_C &&
      reads [0b11001011, 0b11100010] .set_4_D &&
      reads [0b11001011, 0b11100011] .set_4_E &&
      reads [0b11001011, 0b11100100] .set_4_H &&
      reads [0b11001011, 0b11100101] .set_4_L &&
      reads [0b11001011, 0b11100110] .set_4_atHL &&
      reads [0b11001011, 0b11100111] .set_4_A &&
      reads [0b11001011, 0b11101000] .set_5_B &&
      reads [0b11001011, 0b11101001] .set_5_C &&
      reads [0b11001011, 0b11101010] .set_5_D &&
      reads [0b11001011, 0b11101011] .set_5_E &&
      reads [0b11001011, 0b11101100] .set_5_H &&
      reads [0b11001011, 0b11101101] .set_5_L &&
      reads [0b11001011, 0b11101110] .set_5_atHL &&
      reads [0b11001011, 0b11101111] .set_5_A) = true := by decide

theorem test_decode_cb_Fx :
    (reads [0b11001011, 0b11110000] .set_6_B &&
      reads [0b11001011, 0b11110001] .set_6_C &&
      reads [0b11001011, 0b11110010] .set_6_D &&
      reads [0b11001011, 0b11110011] .set_6_E &&
      reads [0b11001011, 0b11110100] .set_6_H &&
      reads [0b11001011, 0b11110101] .set_6_L &&
      reads [0b11001011, 0b11110110] .set_6_atHL &&
      reads [0b11001011, 0b11110111] .set_6_A &&
      reads [0b11001011, 0b11111000] .set_7_B &&
      reads [0b11001011, 0b11111001] .set_7_C &&
      reads [0b11001011, 0b11111010] .set_7_D &&
      reads [0b11001011, 0b11111011] .set_7_E &&
      reads [0b11001011, 0b11111100] .set_7_H &&
      reads [0b11001011, 0b11111101] .set_7_L &&
      reads [0b11001011, 0b11111110] .set_7_atHL &&
      reads [0b11001011, 0b11111111] .set_7_A) = true := by decide

/-- A list of bytes that ends inside an instruction is refused by name. -/
theorem test_decode_truncated : decode [0xC3, 0x00] = .error (.truncated 0xC3) ∧ decode [] = .error .noBytes := ⟨rfl, rfl⟩

/-- The host's numbering: an unprefixed row counts bits from the first byte; a CB row is the number 0xCBxx of the table. -/
theorem test_decodeTableWord :
    decodeTableWord 24 0x1234C3 = some (.jp_nn 0x1234) ∧ decodeTableWord 16 0xCB7C = some .bit_7_H ∧
      decodeTableWord 8 0x00 = some .nop := by decide

/-! ### One step from the vectors' base state -/

/-- The registers of B0 (95_test_vectors.md). -/
def cpu0 : Cpu :=
  { a := 0, f := 0, b := 0, c := 0, d := 0, e := 0, h := 0, l := 0, sp := 0xDFF0, pc := 0xC000, halted := false,
    stopped := false }

/-- The base state B0 with the given registers: LCD off, IME, IE and IF clear, DIV 0, no cartridge, RAM zero. -/
def base (c : Cpu) : State :=
  { State.reset with
    cpu := c, irq := { iflag := 0, ie := 0, ime := false, imeSched := false },
    timer := { State.reset.timer with div := 0 }, ppu := { State.reset.ppu with lcdc := 0 } }

/-- Cells written through the Bus. -/
def withCells : List (Word × Byte) → State → State
  | [], s => s
  | (a, v) :: rest, s => withCells rest (memWrite a v s)

/-- B0 with registers, cells, and the code at 0xC000. -/
def bench (code : List Byte) (c : Cpu) (cells : List (Word × Byte)) : State :=
  placeBytes 0xC000 code (withCells cells (base c))

/-- The state after one step has the registers and the cycle count given, and the bytes given. -/
def stepsTo (s : State) (c : Cpu) (cycles : Nat) (bytes : List (Word × Byte)) : Bool :=
  match step s with
  | .next t => decide (t.cpu = c) && decide (t.cycles = cycles) && bytes.all fun x => decide (memRead x.1 t = x.2)
  | _ => false

/-- V-LD-1 (R200): LD B,C. -/
theorem test_V_LD_1 :
    stepsTo (bench [0x41] { cpu0 with c := 0x5A } [])
      { cpu0 with c := 0x5A, b := 0x5A, pc := 0xC001 } 4 [] = true := by decide

/-- V-LD-2 (R203): LD (HL),A. -/
theorem test_V_LD_2 :
    stepsTo (bench [0x77] { cpu0 with a := 0x99, h := 0xC1, l := 0x00 } [])
      { cpu0 with a := 0x99, h := 0xC1, l := 0x00, pc := 0xC001 } 8 [(0xC100, 0x99)] = true := by decide

/-- V-LD-3 (R202): LD A,(HL). -/
theorem test_V_LD_3 :
    stepsTo (bench [0x7E] { cpu0 with h := 0xC1, l := 0x23 } [(0xC123, 0x3C)])
      { cpu0 with h := 0xC1, l := 0x23, a := 0x3C, pc := 0xC001 } 8 [] = true := by decide

/-- V-LD-4 (R217): LD A,(HL+) at HL=FFFF wraps HL. -/
theorem test_V_LD_4 :
    stepsTo (bench [0x2A] { cpu0 with h := 0xFF, l := 0xFF } [(0xFFFF, 0x1F)])
      { cpu0 with h := 0x00, l := 0x00, a := 0x1F, pc := 0xC001 } 8 [] = true := by decide

/-- V-LD-5 (R216): LD (HL-),A at HL=C000 (self-overwrite of the opcode byte). -/
theorem test_V_LD_5 :
    stepsTo (bench [0x32] { cpu0 with a := 0x77, h := 0xC0, l := 0x00 } [])
      { cpu0 with a := 0x77, h := 0xBF, l := 0xFF, pc := 0xC001 } 8 [(0xC000, 0x77)] = true := by decide

/-- V-LD-6 (R214): LDH (n),A to HRAM. -/
theorem test_V_LD_6 :
    stepsTo (bench [0xE0, 0x80] { cpu0 with a := 0x12 } [])
      { cpu0 with a := 0x12, pc := 0xC002 } 12 [(0xFF80, 0x12)] = true := by decide

/-- V-LD-7 (R212): LD (C),A to HRAM. -/
theorem test_V_LD_7 :
    stepsTo (bench [0xE2] { cpu0 with a := 0x34, c := 0x85 } [])
      { cpu0 with a := 0x34, c := 0x85, pc := 0xC001 } 8 [(0xFF85, 0x34)] = true := by decide

/-- V-LD-8 (R209): LD A,(nn). -/
theorem test_V_LD_8 :
    stepsTo (bench [0xFA, 0x34, 0xD2] cpu0 [(0xD234, 0xAB)])
      { cpu0 with a := 0xAB, pc := 0xC003 } 16 [] = true := by decide

/-- V-LD-9 (R204): LD r,n into (HL). -/
theorem test_V_LD_9 :
    stepsTo (bench [0x36, 0x5E] { cpu0 with h := 0xD0, l := 0x00 } [])
      { cpu0 with h := 0xD0, l := 0x00, pc := 0xC002 } 12 [(0xD000, 0x5E)] = true := by decide

/-- V-LD-10 (R213): LDH A,(n) reads IF with bits 7:5 as 1. -/
theorem test_V_LD_10 :
    stepsTo (bench [0xF0, 0x0F] cpu0 [(0xFF0F, 0x05)])
      { cpu0 with a := 0xE5, pc := 0xC002 } 12 [] = true := by decide

/-- V-LD16-1 (R230): LD SP,nn. -/
theorem test_V_LD16_1 :
    stepsTo (bench [0x31, 0x00, 0xE0] cpu0 [])
      { cpu0 with sp := 0xE000, pc := 0xC003 } 12 [] = true := by decide

/-- V-LD16-2 (R231): LD (nn),SP is little-endian. -/
theorem test_V_LD16_2 :
    stepsTo (bench [0x08, 0x00, 0xD0] { cpu0 with sp := 0xBEEF } [])
      { cpu0 with sp := 0xBEEF, pc := 0xC003 } 20 [(0xD000, 0xEF), (0xD001, 0xBE)] = true := by decide

/-- V-LD16-3 (R233): PUSH BC. -/
theorem test_V_LD16_3 :
    stepsTo (bench [0xC5] { cpu0 with b := 0x12, c := 0x34 } [])
      { cpu0 with b := 0x12, c := 0x34, sp := 0xDFEE, pc := 0xC001 } 16 [(0xDFEF, 0x12), (0xDFEE, 0x34)] = true := by decide

/-- V-LD16-4 (R238): POP AF masks the low nibble of F. -/
theorem test_V_LD16_4 :
    stepsTo (bench [0xF1] { cpu0 with sp := 0xD000 } [(0xD000, 0xFF), (0xD001, 0x12)])
      { cpu0 with sp := 0xD002, a := 0x12, f := 0xF0, pc := 0xC001 } 12 [] = true := by decide

/-- V-LD16-5 (R234): POP HL with SP=FFFF wraps. -/
theorem test_V_LD16_5 :
    stepsTo (bench [0xE1] { cpu0 with sp := 0xFFFF } [(0xFFFF, 0x00)])
      { cpu0 with sp := 0x0001, h := 0xFF, pc := 0xC001 } 12 [] = true := by decide

/-- V-LD16-6 (R232): LD SP,HL. -/
theorem test_V_LD16_6 :
    stepsTo (bench [0xF9] { cpu0 with h := 0xC8, l := 0x00 } [])
      { cpu0 with h := 0xC8, l := 0x00, sp := 0xC800, pc := 0xC001 } 8 [] = true := by decide

/-- V-ALU-1 (R253): ADD A,B (source example). -/
theorem test_V_ALU_1 :
    stepsTo (bench [0x80] { cpu0 with a := 0xAF, b := 0x74 } [])
      { cpu0 with a := 0x23, b := 0x74, f := 0x30, pc := 0xC001 } 4 [] = true := by decide

/-- V-ALU-2 (R259): SUB B (source example). -/
theorem test_V_ALU_2 :
    stepsTo (bench [0x90] { cpu0 with a := 0xD6, b := 0xDE } [])
      { cpu0 with a := 0xF8, b := 0xDE, f := 0x70, pc := 0xC001 } 4 [] = true := by decide

/-- V-ALU-3 (R255): ADD A,n 0xFF+0x01. -/
theorem test_V_ALU_3 :
    stepsTo (bench [0xC6, 0x01] { cpu0 with a := 0xFF } [])
      { cpu0 with a := 0x00, f := 0xB0, pc := 0xC002 } 8 [] = true := by decide

/-- V-ALU-4 (R258): ADC A,n with C=1, 0x0F+0x00+1. -/
theorem test_V_ALU_4 :
    stepsTo (bench [0xCE, 0x00] { cpu0 with a := 0x0F, f := 0x10 } [])
      { cpu0 with a := 0x10, f := 0x20, pc := 0xC002 } 8 [] = true := by decide

/-- V-ALU-5 (R256): ADC A,B with C=1, 0xFF+0xFF+1. -/
theorem test_V_ALU_5 :
    stepsTo (bench [0x88] { cpu0 with a := 0xFF, b := 0xFF, f := 0x10 } [])
      { cpu0 with a := 0xFF, b := 0xFF, f := 0x30, pc := 0xC001 } 4 [] = true := by decide

/-- V-ALU-6 (R264): SBC A,n with C=1, 0x10-0x0F-1. -/
theorem test_V_ALU_6 :
    stepsTo (bench [0xDE, 0x0F] { cpu0 with a := 0x10, f := 0x10 } [])
      { cpu0 with a := 0x00, f := 0xE0, pc := 0xC002 } 8 [] = true := by decide

/-- V-ALU-7 (R262): SBC A,A with C=1. -/
theorem test_V_ALU_7 :
    stepsTo (bench [0x9F] { cpu0 with a := 0x00, f := 0x10 } [])
      { cpu0 with a := 0xFF, f := 0x70, pc := 0xC001 } 4 [] = true := by decide

/-- V-ALU-8 (R259): SUB A,A. -/
theorem test_V_ALU_8 :
    stepsTo (bench [0x97] { cpu0 with a := 0x3C } [])
      { cpu0 with a := 0x00, f := 0xC0, pc := 0xC001 } 4 [] = true := by decide

/-- V-ALU-9 (R267): AND n sets H. -/
theorem test_V_ALU_9 :
    stepsTo (bench [0xE6, 0xF0] { cpu0 with a := 0x0F, f := 0x10 } [])
      { cpu0 with a := 0x00, f := 0xA0, pc := 0xC002 } 8 [] = true := by decide

/-- V-ALU-10 (R268): XOR A. -/
theorem test_V_ALU_10 :
    stepsTo (bench [0xAF] { cpu0 with a := 0x55, f := 0x70 } [])
      { cpu0 with a := 0x00, f := 0x80, pc := 0xC001 } 4 [] = true := by decide

/-- V-ALU-11 (R272): OR (HL). -/
theorem test_V_ALU_11 :
    stepsTo (bench [0xB6] { cpu0 with a := 0x80, h := 0xC1, l := 0x00 } [(0xC100, 0x01)])
      { cpu0 with a := 0x81, h := 0xC1, l := 0x00, pc := 0xC001 } 8 [] = true := by decide

/-- V-ALU-12 (R276): CP n equal leaves A. -/
theorem test_V_ALU_12 :
    stepsTo (bench [0xFE, 0x42] { cpu0 with a := 0x42 } [])
      { cpu0 with a := 0x42, f := 0xC0, pc := 0xC002 } 8 [] = true := by decide

/-- V-ALU-13 (R276): CP n less. -/
theorem test_V_ALU_13 :
    stepsTo (bench [0xFE, 0x43] { cpu0 with a := 0x42 } [])
      { cpu0 with a := 0x42, f := 0x70, pc := 0xC002 } 8 [] = true := by decide

/-- V-ALU-14 (R277): INC r 0xFF keeps C. -/
theorem test_V_ALU_14 :
    stepsTo (bench [0x04] { cpu0 with b := 0xFF, f := 0x10 } [])
      { cpu0 with b := 0x00, f := 0xB0, pc := 0xC001 } 4 [] = true := by decide

/-- V-ALU-15 (R277): INC r 0x0F sets H. -/
theorem test_V_ALU_15 :
    stepsTo (bench [0x0C] { cpu0 with c := 0x0F } [])
      { cpu0 with c := 0x10, f := 0x20, pc := 0xC001 } 4 [] = true := by decide

/-- V-ALU-16 (R279): DEC r 0x01. -/
theorem test_V_ALU_16 :
    stepsTo (bench [0x15] { cpu0 with d := 0x01 } [])
      { cpu0 with d := 0x00, f := 0xC0, pc := 0xC001 } 4 [] = true := by decide

/-- V-ALU-17 (R279): DEC r 0x00 wraps, sets H. -/
theorem test_V_ALU_17 :
    stepsTo (bench [0x1D] { cpu0 with e := 0x00, f := 0x10 } [])
      { cpu0 with e := 0xFF, f := 0x70, pc := 0xC001 } 4 [] = true := by decide

/-- V-ALU-18 (R278): INC (HL). -/
theorem test_V_ALU_18 :
    stepsTo (bench [0x34] { cpu0 with h := 0xC1, l := 0x00 } [(0xC100, 0x7F)])
      { cpu0 with h := 0xC1, l := 0x00, f := 0x20, pc := 0xC001 } 12 [(0xC100, 0x80)] = true := by decide

/-- V-ALU-22 (R281): DAA with A=0x9A, N=H=C=0. -/
theorem test_V_ALU_22 :
    stepsTo (bench [0x27] { cpu0 with a := 0x9A } [])
      { cpu0 with a := 0x00, f := 0x90, pc := 0xC001 } 4 [] = true := by decide

/-- V-ALU-23 (R282): CPL. -/
theorem test_V_ALU_23 :
    stepsTo (bench [0x2F] { cpu0 with a := 0x35, f := 0x80 } [])
      { cpu0 with a := 0xCA, f := 0xE0, pc := 0xC001 } 4 [] = true := by decide

/-- V-ALU-24 (R283): SCF. -/
theorem test_V_ALU_24 :
    stepsTo (bench [0x37] { cpu0 with f := 0xE0 } [])
      { cpu0 with f := 0x90, pc := 0xC001 } 4 [] = true := by decide

/-- V-ALU-25 (R284): CCF with C=1. -/
theorem test_V_ALU_25 :
    stepsTo (bench [0x3F] { cpu0 with f := 0x70 } [])
      { cpu0 with f := 0x00, pc := 0xC001 } 4 [] = true := by decide

/-- V-A16-1 (R291): ADD HL,DE carry from bit 11. -/
theorem test_V_A16_1 :
    stepsTo (bench [0x19] { cpu0 with h := 0x0F, l := 0xFF, d := 0x00, e := 0x01, f := 0x80 } [])
      { cpu0 with h := 0x10, l := 0x00, d := 0x00, e := 0x01, f := 0xA0, pc := 0xC001 } 8 [] = true := by decide

/-- V-A16-2 (R291): ADD HL,HL carry from bit 15. -/
theorem test_V_A16_2 :
    stepsTo (bench [0x29] { cpu0 with h := 0x80, l := 0x00 } [])
      { cpu0 with h := 0x00, l := 0x00, f := 0x10, pc := 0xC001 } 8 [] = true := by decide

/-- V-A16-3 (R292): INC BC wraps, no flags. -/
theorem test_V_A16_3 :
    stepsTo (bench [0x03] { cpu0 with b := 0xFF, c := 0xFF, f := 0x00 } [])
      { cpu0 with b := 0x00, c := 0x00, f := 0x00, pc := 0xC001 } 8 [] = true := by decide

/-- V-A16-4 (R293): DEC SP. -/
theorem test_V_A16_4 :
    stepsTo (bench [0x3B] { cpu0 with sp := 0x0000 } [])
      { cpu0 with sp := 0xFFFF, pc := 0xC001 } 8 [] = true := by decide

/-- V-A16-5 (R294): ADD SP,e e=-1 from SP=0x0001. -/
theorem test_V_A16_5 :
    stepsTo (bench [0xE8, 0xFF] { cpu0 with sp := 0x0001 } [])
      { cpu0 with sp := 0x0000, f := 0x30, pc := 0xC002 } 16 [] = true := by decide

/-- V-A16-6 (R294): ADD SP,e e=+8 from SP=0x00F8. -/
theorem test_V_A16_6 :
    stepsTo (bench [0xE8, 0x08] { cpu0 with sp := 0x00F8 } [])
      { cpu0 with sp := 0x0100, f := 0x30, pc := 0xC002 } 16 [] = true := by decide

/-- V-A16-7 (R295): LD HL,SP+e e=-2 from SP=0xDFF0. -/
theorem test_V_A16_7 :
    stepsTo (bench [0xF8, 0xFE] { cpu0 with sp := 0xDFF0 } [])
      { cpu0 with sp := 0xDFF0, h := 0xDF, l := 0xEE, f := 0x10, pc := 0xC002 } 12 [] = true := by decide

/-- V-ROT-1 (R300): RLCA (source example) with Z=1 before. -/
theorem test_V_ROT_1 :
    stepsTo (bench [0x07] { cpu0 with a := 0x80, f := 0x80 } [])
      { cpu0 with a := 0x01, f := 0x10, pc := 0xC001 } 4 [] = true := by decide

/-- V-ROT-2 (R301): RRCA. -/
theorem test_V_ROT_2 :
    stepsTo (bench [0x0F] { cpu0 with a := 0x01 } [])
      { cpu0 with a := 0x80, f := 0x10, pc := 0xC001 } 4 [] = true := by decide

/-- V-ROT-3 (R302): RLA with C=0, A=0x80 gives 0 and Z=0. -/
theorem test_V_ROT_3 :
    stepsTo (bench [0x17] { cpu0 with a := 0x80 } [])
      { cpu0 with a := 0x00, f := 0x10, pc := 0xC001 } 4 [] = true := by decide

/-- V-ROT-4 (R303): RRA with C=1. -/
theorem test_V_ROT_4 :
    stepsTo (bench [0x1F] { cpu0 with a := 0x00, f := 0x10 } [])
      { cpu0 with a := 0x80, f := 0x00, pc := 0xC001 } 4 [] = true := by decide

/-- V-ROT-5 (R305): RLC B. -/
theorem test_V_ROT_5 :
    stepsTo (bench [0xCB, 0x00] { cpu0 with b := 0x85 } [])
      { cpu0 with b := 0x0B, f := 0x10, pc := 0xC002 } 8 [] = true := by decide

/-- V-ROT-6 (R307): RRC C = 0 gives Z. -/
theorem test_V_ROT_6 :
    stepsTo (bench [0xCB, 0x09] { cpu0 with c := 0x00 } [])
      { cpu0 with c := 0x00, f := 0x80, pc := 0xC002 } 8 [] = true := by decide

/-- V-ROT-7 (R309): RL D with C=1. -/
theorem test_V_ROT_7 :
    stepsTo (bench [0xCB, 0x12] { cpu0 with d := 0x80, f := 0x10 } [])
      { cpu0 with d := 0x01, f := 0x10, pc := 0xC002 } 8 [] = true := by decide

/-- V-ROT-8 (R311): RR E. -/
theorem test_V_ROT_8 :
    stepsTo (bench [0xCB, 0x1B] { cpu0 with e := 0x01 } [])
      { cpu0 with e := 0x00, f := 0x90, pc := 0xC002 } 8 [] = true := by decide

/-- V-ROT-9 (R313): SLA H. -/
theorem test_V_ROT_9 :
    stepsTo (bench [0xCB, 0x24] { cpu0 with h := 0xC0 } [])
      { cpu0 with h := 0x80, f := 0x10, pc := 0xC002 } 8 [] = true := by decide

/-- V-ROT-10 (R315): SRA L keeps bit 7. -/
theorem test_V_ROT_10 :
    stepsTo (bench [0xCB, 0x2D] { cpu0 with l := 0x81 } [])
      { cpu0 with l := 0xC0, f := 0x10, pc := 0xC002 } 8 [] = true := by decide

/-- V-ROT-11 (R317): SWAP A clears C. -/
theorem test_V_ROT_11 :
    stepsTo (bench [0xCB, 0x37] { cpu0 with a := 0xF1, f := 0x10 } [])
      { cpu0 with a := 0x1F, f := 0x00, pc := 0xC002 } 8 [] = true := by decide

/-- V-ROT-12 (R319): SRL A. -/
theorem test_V_ROT_12 :
    stepsTo (bench [0xCB, 0x3F] { cpu0 with a := 0x01 } [])
      { cpu0 with a := 0x00, f := 0x90, pc := 0xC002 } 8 [] = true := by decide

/-- V-ROT-13 (R306): RLC (HL). -/
theorem test_V_ROT_13 :
    stepsTo (bench [0xCB, 0x06] { cpu0 with h := 0xC1, l := 0x00 } [(0xC100, 0x80)])
      { cpu0 with h := 0xC1, l := 0x00, f := 0x10, pc := 0xC002 } 16 [(0xC100, 0x01)] = true := by decide

/-- V-ROT-14 (R321): BIT 7,H set. -/
theorem test_V_ROT_14 :
    stepsTo (bench [0xCB, 0x7C] { cpu0 with h := 0x80, f := 0x10 } [])
      { cpu0 with h := 0x80, f := 0x30, pc := 0xC002 } 8 [] = true := by decide

/-- V-ROT-15 (R321): BIT 0,A clear. -/
theorem test_V_ROT_15 :
    stepsTo (bench [0xCB, 0x47] { cpu0 with a := 0xFE } [])
      { cpu0 with a := 0xFE, f := 0xA0, pc := 0xC002 } 8 [] = true := by decide

/-- V-ROT-16 (R322): BIT 3,(HL) costs 16. -/
theorem test_V_ROT_16 :
    stepsTo (bench [0xCB, 0x5E] { cpu0 with h := 0xC1, l := 0x00 } [(0xC100, 0x08)])
      { cpu0 with h := 0xC1, l := 0x00, f := 0x20, pc := 0xC002 } 16 [] = true := by decide

/-- V-ROT-17 (R323): RES 7,A. -/
theorem test_V_ROT_17 :
    stepsTo (bench [0xCB, 0xBF] { cpu0 with a := 0xFF, f := 0xF0 } [])
      { cpu0 with a := 0x7F, f := 0xF0, pc := 0xC002 } 8 [] = true := by decide

/-- V-ROT-18 (R326): SET 0,(HL). -/
theorem test_V_ROT_18 :
    stepsTo (bench [0xCB, 0xC6] { cpu0 with h := 0xC1, l := 0x00 } [(0xC100, 0x00)])
      { cpu0 with h := 0xC1, l := 0x00, pc := 0xC002 } 16 [(0xC100, 0x01)] = true := by decide

/-- V-CTL-1 (R331): JP nn. -/
theorem test_V_CTL_1 :
    stepsTo (bench [0xC3, 0x34, 0x12] cpu0 [])
      { cpu0 with pc := 0x1234 } 16 [] = true := by decide

/-- V-CTL-2 (R332): JP NZ,nn not taken (Z=1). -/
theorem test_V_CTL_2 :
    stepsTo (bench [0xC2, 0x34, 0x12] { cpu0 with f := 0x80 } [])
      { cpu0 with f := 0x80, pc := 0xC003 } 12 [] = true := by decide

/-- V-CTL-3 (R332): JP C,nn taken. -/
theorem test_V_CTL_3 :
    stepsTo (bench [0xDA, 0x34, 0x12] { cpu0 with f := 0x10 } [])
      { cpu0 with f := 0x10, pc := 0x1234 } 16 [] = true := by decide

/-- V-CTL-4 (R333): JP HL. -/
theorem test_V_CTL_4 :
    stepsTo (bench [0xE9] { cpu0 with h := 0xD0, l := 0x00 } [])
      { cpu0 with h := 0xD0, l := 0x00, pc := 0xD000 } 4 [] = true := by decide

/-- V-CTL-5 (R334): JR e=-2 (self loop). -/
theorem test_V_CTL_5 :
    stepsTo (bench [0x18, 0xFE] cpu0 [])
      { cpu0 with pc := 0xC000 } 12 [] = true := by decide

/-- V-CTL-6 (R334): JR e=+127. -/
theorem test_V_CTL_6 :
    stepsTo (bench [0x18, 0x7F] cpu0 [])
      { cpu0 with pc := 0xC081 } 12 [] = true := by decide

/-- V-CTL-7 (R335): JR Z,e not taken. -/
theorem test_V_CTL_7 :
    stepsTo (bench [0x28, 0x10] cpu0 [])
      { cpu0 with pc := 0xC002 } 8 [] = true := by decide

/-- V-CTL-8 (R336): CALL nn. -/
theorem test_V_CTL_8 :
    stepsTo (bench [0xCD, 0x00, 0xD0] cpu0 [])
      { cpu0 with sp := 0xDFEE, pc := 0xD000 } 24 [(0xDFEF, 0xC0), (0xDFEE, 0x03)] = true := by decide

/-- V-CTL-9 (R337): CALL NC,nn not taken (C=1). -/
theorem test_V_CTL_9 :
    stepsTo (bench [0xD4, 0x00, 0xD0] { cpu0 with f := 0x10 } [])
      { cpu0 with f := 0x10, pc := 0xC003 } 12 [] = true := by decide

/-- V-CTL-10 (R338): RET. -/
theorem test_V_CTL_10 :
    stepsTo (bench [0xC9] { cpu0 with sp := 0xD000 } [(0xD000, 0x50), (0xD001, 0x01)])
      { cpu0 with sp := 0xD002, pc := 0x0150 } 16 [] = true := by decide

/-- V-CTL-11 (R339): RET Z taken. -/
theorem test_V_CTL_11 :
    stepsTo (bench [0xC8] { cpu0 with sp := 0xD000, f := 0x80 } [(0xD000, 0x50), (0xD001, 0x01)])
      { cpu0 with sp := 0xD002, f := 0x80, pc := 0x0150 } 20 [] = true := by decide

/-- V-CTL-12 (R339): RET NZ not taken. -/
theorem test_V_CTL_12 :
    stepsTo (bench [0xC0] { cpu0 with sp := 0xD000, f := 0x80 } [(0xD000, 0x50), (0xD001, 0x01)])
      { cpu0 with sp := 0xD000, f := 0x80, pc := 0xC001 } 8 [] = true := by decide

/-- V-CTL-13 (R340): RST 0x38. -/
theorem test_V_CTL_13 :
    stepsTo (bench [0xFF] cpu0 [])
      { cpu0 with sp := 0xDFEE, pc := 0x0038 } 16 [(0xDFEF, 0xC0), (0xDFEE, 0x01)] = true := by decide

/-- V-SYS-1 (R350): NOP. -/
theorem test_V_SYS_1 :
    stepsTo (bench [0x00] cpu0 [])
      { cpu0 with pc := 0xC001 } 4 [] = true := by decide

/-- A result is a next state that satisfies a test. -/
def nextAnd (r : Result) (p : State → Bool) : Bool :=
  match r with
  | .next t => p t
  | _ => false

theorem exists_next {r : Result} {p : State → Bool} (h : nextAnd r p = true) : ∃ t, r = .next t ∧ p t = true := by
  cases r with
  | next t => exact ⟨t, rfl, h⟩
  | fault f => cases h
  | refused f => cases h

theorem exists_next_only {r : Result} (h : nextAnd r (fun _ => true) = true) : ∃ t, r = .next t :=
  (exists_next h).imp fun _ ht => ht.1

/-- B0 with code at 0xC000, registers and the interrupt controller. -/
def irqBench (code : List Byte) (c : Cpu) (q : Irq) : State := { bench code c [] with irq := q }

/-- The interrupt controller with everything clear. -/
def irq0 : Irq := { iflag := 0, ie := 0, ime := false, imeSched := false }

/-- V-SYS-4 (R353): DI. -/
theorem test_V_SYS_4 :
    nextAnd (step (irqBench [0xF3] cpu0 { irq0 with ime := true }))
      (fun t => decide (t.irq = irq0) && decide (t.cycles = 4) && decide (t.cpu.pc = 0xC001)) = true := by decide

/-- V-SYS-5 (R354): EI alone leaves IME 0 after its step. -/
theorem test_V_SYS_5 :
    nextAnd (step (irqBench [0xFB] cpu0 irq0)) (fun t => decide (t.irq = { irq0 with imeSched := true })) = true := by decide

/-- V-SYS-6 (R354), its second step: EI; NOP. -/
theorem test_V_SYS_6 :
    nextAnd (step (irqBench [0x00] cpu0 { irq0 with imeSched := true })) (fun t => decide (t.irq = { irq0 with ime := true })) =
      true := by decide

/-- V-SYS-7 (R356): the illegal opcode 0xD3. -/
theorem test_V_SYS_7 :
    (match step (bench [0xD3] cpu0 []) with
      | .fault (.illegalOpcode r t) =>
        decide (r = { kind := .illegalOpcode, opcode := 0xD3, address := 0xC000 }) && decide (t.fault = some r) &&
          decide (t.cpu = { cpu0 with pc := 0xC001 })
      | _ => false) = true := by decide

/-- V-CTL-14 (R341): RETI sets IME at once. -/
theorem test_V_CTL_14 :
    nextAnd (step (bench [0xD9] { cpu0 with sp := 0xD000 } [(0xD000, 0x00), (0xD001, 0xC1)]))
      (fun t => decide (t.cpu = { cpu0 with sp := 0xD002, pc := 0xC100 }) && decide (t.irq = { irq0 with ime := true }) &&
        decide (t.cycles = 16)) = true := by decide

/-- V-INT-2 (R413, R414), its third step: the dispatch to 0x0050, where RST 38 is read. -/
theorem test_V_INT_2 :
    nextAnd (step (irqBench [0xFB, 0x00, 0x00] { cpu0 with pc := 0xC002 } { iflag := 0x04, ie := 0x04, ime := true, imeSched := false }))
      (fun t => decide (t.cpu.pc = 0x38) && decide (t.cpu.sp = 0xDFEC) && decide (t.cycles = 21) && decide (t.irq.iflag = 0) &&
        decide (t.irq.ime = false) && decide (memRead 0xDFEF t = 0xC0) && decide (memRead 0xDFEE t = 0x02)) = true := by decide

/-- V-INT-3 (R411): the lowest pending source is bit 2. -/
theorem test_V_INT_3 :
    nextAnd (step (irqBench [0x00] cpu0 { iflag := 0x1C, ie := 0x1F, ime := true, imeSched := false }))
      (fun t => decide (t.irq.iflag = 0x18) && decide (t.cycles = 21) && decide (t.cpu.pc = 0x38)) = true := by decide

/-- V-INT-7 (R416), its wake step: a stopped CPU runs INC B on IF bit 4, whatever IE and IME are. -/
theorem test_V_INT_7 :
    nextAnd (step { irqBench [0x10, 0x00, 0x04] { cpu0 with pc := 0xC002, stopped := true } { irq0 with iflag := 0x10 } with
        timer := { (base cpu0).timer with divFrozen := true } })
      (fun t => decide (t.cpu = { cpu0 with b := 1, pc := 0xC003 }) && decide (t.timer.divFrozen = false) &&
        decide (t.cycles = 4)) = true := by decide

/-- V-INT-9 (R413): with SP 0 the high byte of PC goes to IE, and the request is cleared after the push. -/
theorem test_V_INT_9 :
    nextAnd (step (irqBench [0x00] { cpu0 with sp := 0 } { iflag := 0x01, ie := 0x01, ime := true, imeSched := false }))
      (fun t => decide (t.irq.ie = 0xC0) && decide (t.irq.iflag = 0) && decide (t.cpu.pc = 0x38)) = true := by decide

/-- V-INT-10 (R461): a joypad press. -/
theorem test_V_INT_10 :
    (joypadEvent 0b1110 (base cpu0)).irq.iflag = 0x10 ∧ memRead 0xFF00 (joypadEvent 0b1110 (base cpu0)) = 0xCE := by decide

/-- V-TIM-3 (R431, R432): the reload and the request come in the same tick. -/
theorem test_V_TIM_3 :
    let s := { base cpu0 with timer := { (base cpu0).timer with tac := 4, tima := 0xFF, tma := 0x42 } }
    (timerTick 1023 s).timer.tima = 0xFF ∧ (timerTick 1023 s).irq.iflag = 0 ∧
      (timerTick 1 (timerTick 1023 s)).timer.tima = 0x42 ∧ (timerTick 1 (timerTick 1023 s)).irq.iflag = 4 := by decide

/-- V-TIM-7 (R431): two increments in one tick. -/
theorem test_V_TIM_7 :
    let s := { base cpu0 with timer := { (base cpu0).timer with tac := 5, tima := 0xFE, tma := 0x10 } }
    (timerTick 40 s).timer.tima = 0x10 ∧ (timerTick 40 s).irq.iflag = 4 ∧ (timerTick 40 s).timer.timaAcc = 8 := by decide

/-- V-TIM-9 (R37, R433): the write to DIV comes before the step's tick. -/
theorem test_V_TIM_9 :
    nextAnd (step { bench [0xE0, 0x04] cpu0 [] with timer := { (base cpu0).timer with div := 0x37, divAcc := 200 } })
      (fun t => decide (t.timer.div = 0) && decide (t.timer.divAcc = 12)) = true := by decide

/-- V-PPU-5 (R442): the HBlank STAT request. -/
theorem test_V_PPU_5 :
    let s := { State.reset with irq := irq0, ppu := { State.reset.ppu with statEn := 1, mode := .transfer, dots := 171 } }
    (ppuTick 1 s).ppu.mode = .hblank ∧ (ppuTick 1 s).irq.iflag = 2 := by decide

/-- V-PPU-4 (R443): from line 143's HBlank to VBlank. -/
theorem test_V_PPU_4 :
    let s := { State.reset with irq := irq0, ppu := { State.reset.ppu with ly := 143, mode := .hblank, dots := 203 } }
    (ppuTick 1 s).ppu.mode = .vblank ∧ (ppuTick 1 s).ppu.ly = 144 ∧ (ppuTick 1 s).irq.iflag = 1 := by decide

/-- V-PPU-9 (R446 to R448): pixels of a line. -/
theorem test_V_PPU_9 :
    let s := { base cpu0 with ppu := { State.reset.ppu with lcdc := 0x91 }, vram := [(0x10, 0xA5), (0x11, 0x3C), (0x1800, 0x01)] }
    (List.range 9).map (pixelColour s 0) = [1, 0, 3, 2, 2, 3, 0, 1, 0] := by decide

/-- V-PPU-10 (R447): signed tile data and the second map. -/
theorem test_V_PPU_10 :
    let s := { base cpu0 with ppu := { State.reset.ppu with lcdc := 0x89 }, vram := [(0xFF2, 0xFF), (0x1C23, 0xFF)] }
    (List.range 8).map (fun k => pixelColour s 9 (24 + k)) = [1, 1, 1, 1, 1, 1, 1, 1] := by decide

/-- V-BUS-1, 2, 3, 7 (R73, R76, R75, R46). -/
theorem test_V_BUS :
    memRead 0x7FFF (base cpu0) = 0xFF ∧ memRead 0xA000 (base cpu0) = 0xFF ∧
      memRead 0xC000 (memWrite 0xE000 0x11 (base cpu0)) = 0 ∧ memRead 0xE000 (memWrite 0xE000 0x11 (base cpu0)) = 0x11 ∧
      memRead 0xFF44 (memWrite 0xFF44 0x99 (base cpu0)) = 0 ∧ memRead 0xFF00 (memWrite 0xFF00 0x20 (base cpu0)) = 0xEF := by
  decide

/-- V-BUS-8 (R460): the serial hook. -/
theorem test_V_BUS_8 :
    let s := withCells [(0xFF01, 0x41), (0xFF02, 0x81), (0xFF02, 0x80)] (base cpu0)
    s.serialLog = [0x41] ∧ memRead 0xFF02 s = 0x80 ∧ s.irq.iflag = 0 := by decide

/-- The MBC1 cartridge of V-MBC-1: 8 ROM banks, byte 0 of each bank its number; 4 RAM banks. -/
def mbc1Cart : Cartridge :=
  { mapper := .mbc1, romShift := 2,
    rom := [(0x4000, 1), (0x8000, 2), (0xC000, 3), (0x10000, 4), (0x14000, 5), (0x18000, 6), (0x1C000, 7)], ramBanks := 4,
    ram := [], ramEnable := false, bank1 := 1, bank2 := 0, bankMode := false }

/-- B0 with that cartridge. -/
def mbc1Bench : State := { base cpu0 with cartridge := some mbc1Cart }

/-- V-MBC-1 (R81, R85): bank numbers are masked, and 0 is forced to 1. -/
theorem test_V_MBC_1 :
    memRead 0x4000 mbc1Bench = 1 ∧ memRead 0x4000 (memWrite 0x2000 0x00 mbc1Bench) = 1 ∧
      memRead 0x4000 (memWrite 0x2000 0x05 mbc1Bench) = 5 ∧ memRead 0x4000 (memWrite 0x2000 0x1F mbc1Bench) = 7 ∧
      memRead 0x4000 (memWrite 0x2000 0x08 mbc1Bench) = 1 := by decide

/-- V-MBC-3 (R80, R86): RAM reads 0xFF while disabled; the low nibble 0xA enables it. -/
theorem test_V_MBC_3 :
    memRead 0xA000 (memWrite 0xA000 0x55 mbc1Bench) = 0xFF ∧
      memRead 0xA000 (withCells [(0x0000, 0x1A), (0xA000, 0x55)] mbc1Bench) = 0x55 ∧
      memRead 0xA000 (withCells [(0x0000, 0x0A), (0xA000, 0x55), (0x4000, 2), (0x6000, 1)] mbc1Bench) = 0x00 ∧
      memRead 0xA000 (withCells [(0x0000, 0x0A), (0xA000, 0x55), (0x0000, 0x00)] mbc1Bench) = 0xFF := by decide

/-- R502: with no cartridge the first fetch after reset reads 0xFF, RST 38. -/
theorem test_first_fetch_is_rst :
    nextAnd (step State.reset) (fun t => decide (t.cpu.pc = 0x38) && decide (t.cpu.sp = 0xFFFC) && decide (t.cycles = 16)) =
      true := by decide

/-- An instruction placed by withFetchWord is the one the next step runs (log 4). -/
theorem test_withFetchWord :
    nextAnd (step (State.reset.withFetchWord 24 0xC12301)) (fun t => decide (t.bc = 0xC123) && decide (t.cycles = 12)) = true ∧
      nextAnd (step (State.reset.withFetchWord 16 0xCB37)) (fun t => decide (t.cpu.a = 0x10) && decide (t.cycles = 8)) = true := by
  decide

/-! ### Witnesses: states and operands that meet each statement's hypotheses -/

theorem witness_EncodeThenDecode : Instr.wf (.jp_nn 0xFFFF) = true := by decide

theorem witness_DecodeThenEncode : decode [0xC3, 0xFF, 0xFF, 0x00] = .ok (.jp_nn 0xFFFF, [0x00]) := rfl

theorem witness_LengthFromFirstByte :
    ([] : List Byte).length + 1 = instrLength 0x00 ∧ ([0x42] : List Byte).length + 1 = instrLength 0x3E ∧
      ([0x00, 0xC3] : List Byte).length + 1 = instrLength 0xFA := by decide

theorem witness_StepRunsDecodedInstruction :
    let s := bench [0x3E, 0x42] cpu0 []
    let i := Instr.ld_A_n 0x42
    s.fault = none ∧ (cpuPrelude s).idle = false ∧ i.wf = true ∧
      ∀ k (h : k < (encode i).length), memRead ((cpuPrelude s).cpu.pc + BitVec.ofNat 16 k) (cpuPrelude s) = (encode i)[k] := by
  refine ⟨rfl, by decide, by decide, fun k h => ?_⟩
  have hk : k < 2 := h
  interval_cases k
  · show memRead _ _ = 0x3E
    decide
  · show memRead _ _ = 0x42
    decide

theorem witness_IdleStepCostsFourCycles :
    ((base { cpu0 with halted := true }).fault = none ∧ (wakeChecks (base { cpu0 with halted := true })).idle = true) ∧
      ((base { cpu0 with stopped := true }).fault = none ∧ (wakeChecks (base { cpu0 with stopped := true })).idle = true) := by
  decide

theorem witness_StepCycleCounts :
    (∃ t, step (base { cpu0 with halted := true }) = .next t) ∧ (∃ t, step (bench [0x00] cpu0 []) = .next t) ∧
      ∃ t, step (irqBench [0x00] cpu0 { iflag := 1, ie := 1, ime := true, imeSched := false }) = .next t :=
  ⟨exists_next_only (by decide), exists_next_only (by decide), exists_next_only (by decide)⟩

theorem witness_IllegalOpcodeFaults :
    (let s := bench [0xFD] cpu0 [];
      s.fault = none ∧ (cpuPrelude s).idle = false ∧ memRead (cpuPrelude s).cpu.pc (cpuPrelude s) = IllegalOp.xFD.code) ∧
      { base cpu0 with fault := some { kind := .illegalOpcode, opcode := 0xD3, address := 0 } }.fault =
        some { kind := .illegalOpcode, opcode := 0xD3, address := 0 } := by decide

theorem witness_EveryInstructionCompletes : ∀ k, Instr.nop ≠ (Form.illegal k).instr := by
  intro k
  cases k <;> decide

theorem witness_WakeChecks :
    (let s := irqBench [0x04] { cpu0 with halted := true } { irq0 with iflag := 4, ie := 4 };
      s.cpu.halted = true ∧ s.cpu.stopped = false ∧ s.pending ≠ 0 ∧ s.irq.ime = false) ∧
      (let s := irqBench [0x04] { cpu0 with halted := true } { iflag := 4, ie := 4, ime := true, imeSched := false };
        s.cpu.halted = true ∧ s.cpu.stopped = false ∧ s.pending ≠ 0 ∧ s.irq.ime = true) ∧
      (let s := irqBench [0x04] { cpu0 with halted := true } { irq0 with iflag := 4 };
        s.cpu.halted = true ∧ s.cpu.stopped = false ∧ s.pending = 0) ∧
      (let s := irqBench [0x04] { cpu0 with stopped := true } { irq0 with iflag := 0x10 };
        s.cpu.stopped = true ∧ s.cpu.halted = false ∧ s.irq.iflag.getLsbD 4 = true) ∧
      (let s := irqBench [0x04] { cpu0 with stopped := true } { iflag := 4, ie := 4, ime := true, imeSched := false };
        s.cpu.stopped = true ∧ s.cpu.halted = false ∧ s.irq.iflag.getLsbD 4 = false) := by decide

theorem witness_ReadyInterruptIsLowestBit :
    (irqBench [] cpu0 { irq0 with iflag := 4, ie := 4 }).irq.ime = false ∧
      (let s := irqBench [] cpu0 { iflag := 0x1E, ie := 1, ime := true, imeSched := false };
        s.irq.ie.extractLsb' 0 5 &&& s.irq.iflag = 0) ∧
      (let s := irqBench [] cpu0 { iflag := 0x1C, ie := 0xFF, ime := true, imeSched := false };
        s.irq.ime = true ∧ s.irq.ie.extractLsb' 0 5 &&& s.irq.iflag ≠ 0) := by decide

theorem witness_DispatchEntersHandler :
    let s := irqBench [] cpu0 { iflag := 0x10, ie := 0x10, ime := true, imeSched := false }
    s.cpu.stopped = false ∧ readyInterrupt s = some .joypad := by decide

theorem witness_EiDelayIsOneInstruction :
    (let s := irqBench [0xFB] cpu0 irq0;
      s.fault = none ∧ (cpuPrelude s).idle = false ∧ fetchedInstr (cpuPrelude s) = .ei) ∧
      (let s := irqBench [0xF3] cpu0 { irq0 with imeSched := true };
        s.fault = none ∧ (cpuPrelude s).idle = false ∧ fetchedInstr (cpuPrelude s) = .di) ∧
      (let s := irqBench [0x00] cpu0 { irq0 with imeSched := true, ie := 4, iflag := 4 };
        s.fault = none ∧ (cpuPrelude s).idle = false ∧ s.irq.imeSched = true ∧ s.irq.ime = false ∧
          fetchedInstr (cpuPrelude s) ≠ .di ∧ ∀ k, fetchedInstr (cpuPrelude s) ≠ (Form.illegal k).instr) :=
  ⟨by decide, by decide, by decide, by decide, by decide, by decide, by decide, fun k => by cases k <;> decide⟩

theorem witness_OnlyEiDiRetiDispatchChangeIme :
    (Instr.nop ≠ .ei ∧ Instr.nop ≠ .di ∧ Instr.nop ≠ .reti ∧ ∃ t, exec .nop (base cpu0) = .next t) ∧
      (∃ t, step (irqBench [0x00] cpu0 { irq0 with imeSched := true }) = .next t ∧ t.irq.ime = true) ∧
      (∃ t, step (irqBench [0xD9] cpu0 irq0) = .next t ∧ t.irq.ime = true) ∧
      (∃ t, step (irqBench [0xF3] cpu0 { irq0 with ime := true }) = .next t ∧ t.irq.ime = false) ∧
      ∃ t, step (irqBench [0x00] cpu0 { iflag := 1, ie := 1, ime := true, imeSched := false }) = .next t ∧ t.irq.ime = false := by
  refine ⟨⟨by decide, by decide, by decide, _, rfl⟩, ?_, ?_, ?_, ?_⟩
  · simpa using exists_next (p := fun t => t.irq.ime) (by decide)
  · simpa using exists_next (p := fun t => t.irq.ime) (by decide)
  · simpa using exists_next (p := fun t => !t.irq.ime) (by decide)
  · simpa using exists_next (p := fun t => !t.irq.ime) (by decide)

theorem base_inv : (base cpu0).Inv := by
  constructor
  case line => simp [lineMatchesMode, base, State.reset, State.powerOn]
  case cartridge => intro c hc; cases hc
  all_goals decide

theorem witness_StepKeepsInvariant :
    (memWrite 0xC000 0x04 (base cpu0)).Inv ∧ ∃ t, step (memWrite 0xC000 0x04 (base cpu0)) = .next t :=
  ⟨base_inv.memWrite _ _, exists_next_only (by decide)⟩

/-- A cartridge image whose header bytes are given, all other bytes 0. -/
@[irreducible] def image (type shift ram : Byte) (size : Nat) : List Byte :=
  List.replicate 0x147 0 ++ (type :: shift :: ram :: List.replicate (size - 0x14A) 0)

theorem image_length (type shift ram : Byte) {size : Nat} (h : 0x14A ≤ size) : (image type shift ram size).length = size := by
  unfold image
  simp only [List.length_append, List.length_replicate, List.length_cons]
  omega

theorem image_header (type shift ram : Byte) (size : Nat) :
    (image type shift ram size).getD 0x147 0 = type ∧ (image type shift ram size).getD 0x148 0 = shift ∧
      (image type shift ram size).getD 0x149 0 = ram := by
  unfold image
  simp [List.getD_eq_getElem?_getD, List.getElem?_append, -List.reduceReplicate]

theorem loadCartridge_error {im : List Byte} {draw : Memory} {e : LoadError}
    (h : checkHeader (im.getD 0x147 0) (im.getD 0x148 0) im.length = .error e) : ∃ e, loadCartridge im draw = .error e :=
  ⟨e, by simp only [loadCartridge, h]⟩

theorem loadCartridge_ok {im : List Byte} {draw : Memory} {m : Mapper}
    (h : checkHeader (im.getD 0x147 0) (im.getD 0x148 0) im.length = .ok m) :
    ∃ c, loadCartridge im draw = .ok c ∧ c.ramBanks = ramBanksOfId (im.getD 0x149 0) := by
  simp only [loadCartridge, h]
  exact ⟨_, rfl, rfl⟩

theorem witness_CartridgeLoad :
    (let im := image 0x05 0 0 0x8000;
      0x150 ≤ im.length ∧ im.getD 0x147 0 ∉ ([0x00, 0x01, 0x02, 0x03] : List Byte) ∧
        im.length = 0x8000 * 2 ^ (im.getD 0x148 0).toNat) ∧
      (let im := image 0x01 1 0 0x8000;
        0x150 ≤ im.length ∧ im.getD 0x147 0 ∈ ([0x00, 0x01, 0x02, 0x03] : List Byte) ∧
          im.length ≠ 0x8000 * 2 ^ (im.getD 0x148 0).toNat ∧ ∃ e, loadCartridge im [] = .error e) ∧
      (let im := image 0x03 1 2 0x10000;
        0x150 ≤ im.length ∧ im.getD 0x147 0 ∈ ([0x00, 0x01, 0x02, 0x03] : List Byte) ∧
          im.length = 0x8000 * 2 ^ (im.getD 0x148 0).toNat) := by
  dsimp only
  obtain ⟨a1, a2, -⟩ := image_header 0x05 0 0 0x8000
  obtain ⟨b1, b2, -⟩ := image_header 0x01 1 0 0x8000
  obtain ⟨c1, c2, -⟩ := image_header 0x03 1 2 0x10000
  have la := image_length 0x05 0 0 (show 0x14A ≤ 0x8000 by decide)
  have lb := image_length 0x01 1 0 (show 0x14A ≤ 0x8000 by decide)
  have lc := image_length 0x03 1 2 (show 0x14A ≤ 0x10000 by decide)
  have hb : checkHeader 0x01 1 0x8000 = .error (.sizeMismatch 0x10000 0x8000) := by decide
  rw [a1, a2, la, b1, b2, lb, c1, c2, lc]
  exact ⟨⟨by decide, by decide, by decide⟩, ⟨by decide, by decide, by decide, loadCartridge_error (by rw [b1, b2, lb, hb])⟩,
    ⟨by decide, by decide, by decide⟩⟩

theorem witness_LoadedMachineMeetsInvariant :
    ∃ (c : Cartridge) (p : PowerOn), loadCartridge (image 0x03 0 2 0x8000) [(0x1FFF, 0x77)] = .ok c ∧
      Memory.ok (fun k => decide (k < c.ramBanks * 0x2000)) [(0x1FFF, 0x77)] = true ∧ p.cartridge = some c ∧
      Memory.ok (fun k => decide (k < 0x2000)) p.vram = true ∧ Memory.ok plainKey p.ioPlain = true ∧
      Memory.ok fallbackKey p.ram = true := by
  obtain ⟨h1, h2, h3⟩ := image_header 0x03 0 2 0x8000
  have hl := image_length 0x03 0 2 (show 0x14A ≤ 0x8000 by decide)
  have hk : checkHeader 0x03 0 0x8000 = .ok .mbc1 := by decide
  have h := loadCartridge_ok (draw := [(0x1FFF, 0x77)]) (show checkHeader ((image 0x03 0 2 0x8000).getD 0x147 0) _ _ = .ok .mbc1 by
    rw [h1, h2, hl, hk])
  rw [h3] at h
  obtain ⟨c, hc, hr⟩ := h
  refine ⟨c, { PowerOn.default with cartridge := some c, vram := [(0x1FFF, 1)], ioPlain := [(0xFF7F, 2)], ram := [(0xC000, 3)] },
    hc, ?_, rfl, rfl, rfl, rfl⟩
  rw [hr]
  decide

theorem witness_ResetValues : { PowerOn.default with cartridge := some mbc1Cart }.cartridge = some mbc1Cart := rfl

theorem witness_FlagsLowNibbleStaysZero :
    (base { cpu0 with f := 0xF0 }).cpu.f &&& 0x0F = 0 ∧
      ∃ t, exec .pop_AF (base { cpu0 with f := 0xF0 }) = .next t := ⟨by decide, _, rfl⟩

theorem witness_RomNeverChanges : ∃ t, step { mbc1Bench with cpu := { cpu0 with pc := 0x4000 } } = .next t :=
  exists_next_only (by decide)

theorem witness_InstructionsLeaveTickState : ∃ t, exec (.ldh_at_n_A 0x44) (base cpu0) = .next t := ⟨_, rfl⟩

theorem base_canonical : (base cpu0).Canonical := ⟨rfl, rfl, rfl⟩

theorem witness_BusReadAfterWrite :
    (base cpu0).Canonical ∧
      (([0x8000, 0x9FFF, 0xC000, 0xFEFF, 0xFF01, 0xFF03, 0xFF7F, 0xFF80, 0xFFFE, 0xFFFF] : List Word).all storesWhole = true ∧
        ((0x8001 : Word) ≠ 0x8000 ∧ 0x8000 ≤ (0x8000 : Word).toNat) ∧
        ((0xC000 : Word) ≠ 0x7FFF ∧ cartridgeWindow 0xC000 = false)) := ⟨base_canonical, by decide⟩

theorem witness_IoRegisterTable :
    (0xFF00 ≤ (0xFF03 : Word).toNat ∧ (0xFF03 : Word).toNat ≤ 0xFF7F ∧ (0xFF03 : Word) ∉ ([0xFF00, 0xFF01, 0xFF02, 0xFF04, 0xFF05, 0xFF06, 0xFF07, 0xFF0F, 0xFF40, 0xFF41, 0xFF42, 0xFF43, 0xFF44, 0xFF45,
        0xFF46, 0xFF47, 0xFF48, 0xFF49, 0xFF4A, 0xFF4B] : List Word)) ∧
      (0xFF00 ≤ (0xFF7F : Word).toNat ∧ (0xFF7F : Word).toNat ≤ 0xFF7F ∧ (0xFF7F : Word) ∉ ([0xFF00, 0xFF01, 0xFF02, 0xFF04, 0xFF05, 0xFF06, 0xFF07, 0xFF0F, 0xFF40, 0xFF41, 0xFF42, 0xFF43, 0xFF44, 0xFF45,
        0xFF46, 0xFF47, 0xFF48, 0xFF49, 0xFF4A, 0xFF4B] : List Word)) := by decide

theorem witness_Mbc1RegisterWrites :
    mbc1Bench.cartridge = some mbc1Cart ∧ mbc1Cart.mapper = .mbc1 ∧ (0x1FFF : Word).toNat < 0x2000 ∧
      (0x2000 ≤ (0x2000 : Word).toNat ∧ (0x3FFF : Word).toNat < 0x4000) ∧
      (0x4000 ≤ (0x4000 : Word).toNat ∧ (0x5FFF : Word).toNat < 0x6000) ∧
      (0x6000 ≤ (0x6000 : Word).toNat ∧ (0x7FFF : Word).toNat < 0x8000) := by decide

theorem witness_Mbc1BankedAccess :
    mbc1Bench.cartridge = some mbc1Cart ∧ mbc1Cart.mapper = .mbc1 ∧ (0x3FFF : Word).toNat < 0x4000 ∧
      (0x4000 ≤ (0x4000 : Word).toNat ∧ (0x7FFF : Word).toNat < 0x8000 ∧ mbc1Cart.bankMode = false) ∧
      { mbc1Cart with bankMode := true }.bankMode = true ∧
      (0xA000 ≤ (0xA000 : Word).toNat ∧ (0xBFFF : Word).toNat < 0xC000 ∧ { mbc1Cart with ramEnable := true }.ramEnable = true ∧
        0 < mbc1Cart.ramBanks ∧ mbc1Cart.ram.wf = true) ∧
      mbc1Cart.ramEnable = false ∧ { mbc1Cart with ramBanks := 0 }.ramBanks = 0 := by decide

theorem witness_UnbankedAndAbsentCartridge :
    ([0x0000, 0x7FFF, 0xA000, 0xBFFF] : List Word).all cartridgeWindow = true ∧ (base cpu0).cartridge = none ∧
      { base cpu0 with cartridge := some emptyCartridge }.cartridge = some emptyCartridge ∧ emptyCartridge.mapper = .romOnly ∧
      (0x7FFF : Word).toNat < 0x8000 ∧ 0xA000 ≤ (0xBFFF : Word).toNat := by decide

theorem witness_DivCountsEvery256Cycles :
    (base cpu0).timer.divFrozen = false ∧
      { base cpu0 with timer := { (base cpu0).timer with divFrozen := true } }.timer.divFrozen = true := by decide

theorem witness_TimaCountsAndReloads :
    (let s := { base cpu0 with timer := { (base cpu0).timer with tac := 4 } };
      s.timer.tac.getLsbD 2 = true ∧ ¬(s.cpu.stopped = true ∧ s.timer.stopFreezesTima = true)) ∧
      ¬((base cpu0).timer.tac.getLsbD 2 = true ∧
        ¬((base cpu0).cpu.stopped = true ∧ (base cpu0).timer.stopFreezesTima = true)) ∧ (4 : Nat) ≠ 2 := by decide

theorem witness_PpuTickRunsTransitions :
    (base cpu0).ppu.lcdc.getLsbD 7 = false ∧
      (State.reset.ppu.lcdc.getLsbD 7 = true ∧ State.reset.ppu.dots + 79 < dotBudget State.reset.ppu.mode) ∧
      dotBudget State.reset.ppu.mode ≤ State.reset.ppu.dots + 80 := by decide

theorem witness_PpuTransitions :
    ∀ q ∈ ([(.oamSearch, 0), (.transfer, 0), (.hblank, 142), (.hblank, 143), (.vblank, 153), (.vblank, 152)] : List (PpuMode × Byte)),
      let s := { State.reset with ppu := { State.reset.ppu with mode := q.1, ly := q.2 } }
      s.ppu.mode = .oamSearch ∨ s.ppu.mode = .transfer ∨ (s.ppu.mode = .hblank ∧ (s.ppu.ly + 1).toNat ≤ 143) ∨
        (s.ppu.mode = .hblank ∧ 143 < (s.ppu.ly + 1).toNat) ∨ (s.ppu.mode = .vblank ∧ s.ppu.ly = 153) ∨
        (s.ppu.mode = .vblank ∧ s.ppu.ly ≠ 153) := by decide

theorem witness_RenderedLine :
    (143 : Nat) < 144 ∧ Sparse.wf blankRow State.reset.ppu.framebuffer = true ∧ (255 : Nat) < 256 ∧ (0 : Nat) ≠ 143 := by decide

theorem witness_FrameTakes70224Dots :
    State.reset.ppu.lcdc.getLsbD 7 = true ∧ State.reset.ppu.mode = .oamSearch ∧ State.reset.ppu.dots = 0 ∧
      State.reset.ppu.ly = 0 ∧ (65663 : Nat) < 65664 ∧ (65664 : Nat) ≤ 65664 ∧ (70223 : Nat) < 70224 := by decide

theorem witness_JoypadEventRequestsOnPress :
    ∃ k, k < 4 ∧ { State.reset with cpu := { State.reset.cpu with stopped := true } }.joypad.input.getLsbD k = true ∧
      (0xE : BitVec 4).getLsbD k = false := ⟨0, by decide⟩

theorem witness_ReturnUndoesCall :
    (base cpu0).Canonical ∧ storesWhole ((base cpu0).cpu.sp - 1) = true ∧ storesWhole ((base cpu0).cpu.sp - 2) = true :=
  ⟨base_canonical, by decide, by decide⟩

theorem witness_DaaGivesDecimalSums :
    (99 : Nat) < 100 ∧ (base { cpu0 with a := 0x99, b := 0x08 }).cpu.a = bcd 99 ∧
      (base { cpu0 with a := 0x99, b := 0x08 }).cpu.b = bcd 8 := by decide

theorem witness_AccumulatorRotates : (1 : Nat) = ((base { cpu0 with f := 0x10 }).cpu.f.getLsbD 4).toNat := by decide

theorem witness_RegisterShifts :
    (3, 1) = shiftValue .rlc ((base { cpu0 with b := 0x81 }).reg .b).toNat ((base cpu0).cpu.f.getLsbD 4).toNat := by decide

theorem witness_MemoryShifts :
    (0xFF, 0) = shiftValue .swap (memRead (base cpu0).hl (base cpu0)).toNat ((base cpu0).cpu.f.getLsbD 4).toNat := by decide

/-- Each condition holds in some state and fails in another. -/
theorem conditions (cc : Cond) : (∃ s, condTrue cc s) ∧ ∃ s, ¬condTrue cc s := by
  have h0 : (base cpu0).cpu.f.getLsbD 7 = false ∧ (base cpu0).cpu.f.getLsbD 4 = false := by decide
  have h1 : (base { cpu0 with f := 0x90 }).cpu.f.getLsbD 7 = true ∧ (base { cpu0 with f := 0x90 }).cpu.f.getLsbD 4 = true := by
    decide
  cases cc
  · exact ⟨⟨_, h0.1⟩, _, fun h => Bool.false_ne_true (h.symm.trans h1.1)⟩
  · exact ⟨⟨_, h1.1⟩, _, fun h => Bool.false_ne_true (h0.1.symm.trans h)⟩
  · exact ⟨⟨_, h0.2⟩, _, fun h => Bool.false_ne_true (h.symm.trans h1.2)⟩
  · exact ⟨⟨_, h1.2⟩, _, fun h => Bool.false_ne_true (h0.2.symm.trans h)⟩

theorem witness_Jumps : ∀ cc, (∃ s, condTrue cc s) ∧ ∃ s, ¬condTrue cc s := conditions

theorem witness_Calls : ∀ cc, (∃ s, condTrue cc s) ∧ ∃ s, ¬condTrue cc s := conditions

theorem witness_Returns : ∀ cc, (∃ s, condTrue cc s) ∧ ∃ s, ¬condTrue cc s := conditions

theorem witness_PrefixCbRunsSelected :
    (0x3F : Byte) = 0b00#2 ++ ShiftOp.code .srl ++ Loc.code (.reg .a) ∧ (0x46 : Byte) = 0b01#2 ++ BitVec.ofNat 3 0 ++ Loc.code .atHL ∧
      (0x80 : Byte) = 0b10#2 ++ BitVec.ofNat 3 0 ++ Loc.code (.reg .b) ∧
      (0xFF : Byte) = 0b11#2 ++ BitVec.ofNat 3 7 ++ Loc.code (.reg .a) := by decide

end Sys2Proof.Tests
end

