-- ==== Sys2Proof/Proofs/State.lean ====
section
/-! PROOFS. The statements about the machine's state (10_state.md): the invariant every step keeps and every loaded machine
starts with, the idle step, what may change IME, F's low nibble, and what no instruction writes. -/

namespace Sys2Proof.Machine

/-! ### What executing an instruction can do -/

/-- The next states of executing an instruction: register, flag and Bus writes and the cycle count, or what one of the five
system instructions that complete does (R341, R351 to R354). -/
inductive Executes (s : State) : Instr → State → Prop where
  | writes {i : Instr} {u : State} (n : Nat) : Effect s u → Executes s i { u with cycles := n }
  | halt (n : Nat) : Executes s .halt { s with cpu := { s.cpu with halted := true }, cycles := n }
  | stop (ignored : Byte) (n : Nat) :
    Executes s (.stop ignored)
      { s with
        cpu := { s.cpu with stopped := true }, timer := { s.timer with divAcc := 0, divFrozen := true }, cycles := n }
  | di (n : Nat) : Executes s .di { disableInterrupts s with cycles := n }
  | ei (n : Nat) : Executes s .ei { orderEnableAll s with cycles := n }
  | reti {u : State} (n : Nat) : Effect s u → Executes s .reti { enableInterrupts u with cycles := n }

/-- The states an instruction answers are among them: the form of an instruction says which (`formMeaning_effect`). -/
theorem executes_of_exec {i : Instr} {s t : State} (h : exec i s = .next t) : Executes s i t := by
  rw [exec_eq] at h
  by_cases hsys : isSystem i.form = false
  · obtain ⟨u, hu, e⟩ := formMeaning_effect i.form s hsys
    rw [e] at h
    rw [retire_eq_next h]
    exact .writes _ hu
  · have hi := Form.instr_form i
    generalize i.form = f at h hsys hi
    subst hi
    cases f
    case halt => cases h; exact .halt _
    case stop ignored => cases h; exact .stop ignored _
    case di => cases h; exact .di _
    case ei => cases h; exact .ei _
    case reti => cases h; exact .reti _ ((Effect.refl.sp _).pc _)
    case illegal => cases h
    all_goals exact absurd rfl hsys

/-! ### O15: every step keeps the invariant -/

/-- The CPU part of a step, idle or not, keeps the invariant. -/
theorem State.Inv.cpuExecute {s t : State} (h : s.Inv) (he : Machine.cpuExecute s = .next t) : t.Inv := by
  unfold Machine.cpuExecute at he
  split at he
  · rw [retire_eq_next he]
    exact h.setCycles _
  · rename_i hi
    have hpc : (s.setPc (fetchedPc s)).Inv := h.effect (.pc _ .refl)
    exact hpc.exec (Bool.eq_false_iff.2 hi) _ he

/-- Settles O15: each part of the step in turn keeps the invariant: the prelude, the execution, the EI-delay update and the two
ticks. -/
theorem stepKeepsInvariant : Obligations.StepKeepsInvariant := by
  intro s t h hstep
  obtain ⟨-, u, hu, rfl⟩ := step_eq_next hstep
  have hui : u.Inv := h.cpuPrelude.cpuExecute hu
  exact ((hui.updateState _).timerTick _).ppuTick _

/-! ### O6: the idle step -/

theorem cpuExecute_of_idle {s : State} (h : s.idle = true) :
    cpuExecute s = .next { s with cycles := s.cycles + 4 } := if_pos h

/-- Settles O6: a CPU that the wake checks leave idle takes no interrupt, so the prelude is the wake checks alone; no tick writes
a register. -/
theorem idleStepCostsFourCycles : Obligations.IdleStepCostsFourCycles := by
  intro s hf hidle
  have hx : cpuExecute (cpuPrelude s) = .next { wakeChecks s with cycles := 4 } := by
    rw [cpuPrelude_eq_of_idle hidle]
    exact cpuExecute_of_idle hidle
  have hstep := step_of_execute hf hx
  refine ⟨hstep, fun t ht => ?_⟩
  have hcpu : t.cpu = (wakeChecks s).cpu := by
    rw [hstep] at ht
    cases ht
    simp
  refine ⟨hcpu, fun r => ?_⟩
  have hreg : t.reg r = (wakeChecks s).reg r := by simp only [State.reg, hcpu]
  rw [hreg, wakeChecks_reg]

/-! ### O14: what changes IME and its schedule -/

/-- What an instruction may do to IME: DI clears it, RETI sets it, every other leaves it (R33). -/
theorem exec_ime {i : Instr} {s t : State} (h : exec i s = .next t) :
    t.irq.ime = s.irq.ime ∨ (i = .di ∧ t.irq.ime = false) ∨ (i = .reti ∧ t.irq.ime = true) := by
  cases executes_of_exec h with
  | writes _ hu => exact .inl hu.kept.ime
  | halt => exact .inl rfl
  | stop => exact .inl rfl
  | di => exact .inr (.inl ⟨rfl, rfl⟩)
  | ei => exact .inl rfl
  | reti => exact .inr (.inr ⟨rfl, rfl⟩)

/-- An instruction other than EI, DI and RETI leaves the schedule. -/
theorem exec_imeSched {i : Instr} {s t : State} (hei : i ≠ .ei) (hdi : i ≠ .di) (hreti : i ≠ .reti)
    (h : exec i s = .next t) : t.irq.imeSched = s.irq.imeSched := by
  cases executes_of_exec h with
  | writes _ hu => exact hu.kept.imeSched
  | halt => rfl
  | stop => rfl
  | di => exact absurd rfl hdi
  | ei => exact absurd rfl hei
  | reti => exact absurd rfl hreti

/-- The same of the CPU part of a step: an idle CPU runs neither DI nor RETI. -/
theorem cpuExecute_ime {s t : State} (h : cpuExecute s = .next t) :
    t.irq.ime = s.irq.ime ∨ (s.idle = false ∧ fetchedInstr s = .di ∧ t.irq.ime = false) ∨
      (s.idle = false ∧ fetchedInstr s = .reti ∧ t.irq.ime = true) := by
  unfold cpuExecute at h
  split at h
  · rw [retire_eq_next h]
    exact .inl rfl
  · rename_i hi
    have hi' := Bool.eq_false_iff.2 hi
    rcases exec_ime h with e | e | e
    · exact .inl e
    · exact .inr (.inl ⟨hi', e⟩)
    · exact .inr (.inr ⟨hi', e⟩)

/-- Without a ready request the prelude dispatches nothing, and leaves IME. -/
theorem cpuPrelude_ime_of_not_ready {s : State} (h : readyInterrupt (wakeChecks s) = none) :
    (cpuPrelude s).irq.ime = s.irq.ime := by
  have hr : readyInterrupt { wakeChecks s with cycles := 0 } = none := h
  unfold cpuPrelude serviceInterrupts
  rw [wakeChecks_with_cycles, hr]
  split <;> simp

theorem readyInterrupt_of_not_ime {s : State} (h : s.irq.ime = false) : readyInterrupt s = none := by
  simp [readyInterrupt, h]

/-- The EI-delay update only ever raises IME, and only under a schedule set before the step and after it (R419). -/
theorem updateState_ime (before : Bool) (s : State) :
    (updateState before s).irq.ime = (s.irq.ime || (before && s.irq.imeSched)) := by
  unfold updateState
  split
  · rename_i h
    simp [h]
  · rename_i h
    rw [Bool.and_eq_false_imp.2 fun hb => Bool.eq_false_iff.2 fun hs => h ⟨hb, hs⟩, Bool.or_false]

/-- Of a whole step IME is what the CPU part left, or what the EI-delay update made of it. -/
theorem step_ime {s t : State} (h : step s = .next t) :
    ∃ u, cpuExecute (cpuPrelude s) = .next u ∧ t.irq.ime = (u.irq.ime || (s.irq.imeSched && u.irq.imeSched)) := by
  obtain ⟨-, u, hu, rfl⟩ := step_eq_next h
  exact ⟨u, hu, by rw [ppuTick_ime, timerTick_ime, updateState_ime]⟩

/-- R33: a step under a clear schedule raises IME only by RETI. -/
theorem step_raises_ime {s t : State} (h : step s = .next t) (hs : s.irq.ime = false) (ht : t.irq.ime = true) :
    s.irq.imeSched = true ∨ ((cpuPrelude s).idle = false ∧ fetchedInstr (cpuPrelude s) = .reti) := by
  obtain ⟨u, hu, e⟩ := step_ime h
  cases hb : s.irq.imeSched with
  | true => exact .inl rfl
  | false =>
    have hut : u.irq.ime = true := by simpa [hb, ht] using e.symm
    have hp : (cpuPrelude s).irq.ime = false :=
      (cpuPrelude_ime_of_not_ready (readyInterrupt_of_not_ime (by simpa using hs))).trans hs
    rcases cpuExecute_ime hu with k | ⟨-, -, k⟩ | ⟨hi, hr, -⟩
    · rw [hut, hp] at k
      cases k
    · rw [hut] at k
      cases k
    · exact .inr ⟨hi, hr⟩

/-- R33: a step with no ready request lowers IME only by DI. -/
theorem step_lowers_ime {s t : State} (h : step s = .next t) (hs : s.irq.ime = true) (ht : t.irq.ime = false) :
    (readyInterrupt (wakeChecks s)).isSome = true ∨
      ((cpuPrelude s).idle = false ∧ fetchedInstr (cpuPrelude s) = .di) := by
  obtain ⟨u, hu, e⟩ := step_ime h
  cases hr : readyInterrupt (wakeChecks s) with
  | some k => exact .inl rfl
  | none =>
    have huf : u.irq.ime = false := (Bool.or_eq_false_iff.1 (e.symm.trans ht)).1
    have hp : (cpuPrelude s).irq.ime = true := (cpuPrelude_ime_of_not_ready hr).trans hs
    rcases cpuExecute_ime hu with k | ⟨hi, hd, -⟩ | ⟨-, -, k⟩
    · rw [huf, hp] at k
      cases k
    · exact .inr ⟨hi, hd⟩
    · rw [huf] at k
      cases k

/-- Settles O14, from what an instruction (`exec_ime`, `exec_imeSched`), the interrupt query and the EI-delay update can each do
to IME. -/
theorem onlyEiDiRetiDispatchChangeIme : Obligations.OnlyEiDiRetiDispatchChangeIme := by
  refine ⟨fun i s t hei hdi hreti h => ⟨?_, exec_imeSched hei hdi hreti h⟩, fun s t => step_raises_ime,
    fun s t => step_lowers_ime⟩
  rcases exec_ime h with e | ⟨e, -⟩ | ⟨e, -⟩
  · exact e
  · exact absurd e hdi
  · exact absurd e hreti

/-! ### O17: a loaded machine meets the invariant -/

/-- The array of a list lies within the list's length. -/
theorem Memory.ok_ofList (l : List Byte) : Memory.ok (fun k => decide (k < l.length)) (Memory.ofList l) = true := by
  refine Bool.and_eq_true_iff.2 ⟨Memory.wf_ofList l, List.all_eq_true.2 fun c hc => decide_eq_true ?_⟩
  have := Sparse.mem_ofListFrom Memory.unlisted l 0 hc
  omega

/-- A load that passes the header's checks has a file of the header's size (R78). -/
theorem size_of_checkHeader {type shift : Byte} {size : Nat} {m : Mapper} (h : checkHeader type shift size = .ok m) :
    size = romSize shift.toNat := by
  unfold checkHeader at h
  split at h
  · cases h
  · split at h
    · assumption
    · cases h

/-- A loaded cartridge holds the image, of the size its shift says, and the draw of its RAM, with MBC1's registers as reset
leaves them (R78, R501). -/
theorem loadCartridge_ok {image : List Byte} {draw : Memory} {c : Cartridge} (h : loadCartridge image draw = .ok c) :
    c.rom = Memory.ofList image ∧ image.length = romSize c.romShift ∧ c.ram = draw := by
  unfold loadCartridge at h
  dsimp only at h
  split at h
  · cases h
  · rename_i m hm
    cases h
    exact ⟨rfl, size_of_checkHeader hm, rfl⟩

theorem Cartridge.one_lt_romBanks (c : Cartridge) : 1 < c.romBanks := by
  have := Nat.one_le_two_pow (n := c.romShift)
  rw [Cartridge.romBanks, Nat.shiftLeft_eq]
  omega

/-- Reset sets `bank1` to 1, which is below the number of banks of every cartridge (R501). -/
theorem Cartridge.Ok.reset {c : Cartridge} (hrom : Memory.ok (fun k => decide (k < romSize c.romShift)) c.rom = true)
    (hram : Memory.ok (fun k => decide (k < c.ramBanks * Config.ramBankSize)) c.ram = true) : c.reset.Ok :=
  { rom := hrom, ram := hram, bankNotZero := (by decide : (1 : BitVec 5) ≠ 0), bankInRange := c.one_lt_romBanks }

/-- Reset meets the invariant whatever its arguments are, if its arrays are canonical and within their ranges. -/
theorem State.Inv.powerOn {p : PowerOn} (hv : Memory.ok (fun k => decide (k < 0x2000)) p.vram = true)
    (hio : Memory.ok plainKey p.ioPlain = true) (hr : Memory.ok fallbackKey p.ram = true)
    (hc : ∀ c, p.cartridge = some c → c.reset.Ok) : (State.powerOn p).Inv where
  flagsLow := and_F0_low _
  oneIdle h := Bool.false_ne_true h.1
  frozen := rfl
  frozenAcc _ := rfl
  divAcc := (by decide : 0 < 256)
  timaAcc := (by decide : 0 < 1024)
  dots := dotBudget_pos .oamSearch
  line := Nat.zero_le 143
  framebuffer := ⟨rfl, fun _ h => by cases h⟩
  vram := hv
  ioPlain := hio
  ram := hr
  cartridge c' h := by
    obtain ⟨c, hpc, rfl⟩ := Option.map_eq_some_iff.1 h
    exact hc c hpc
  fault := rfl

/-- Settles O17: the image of a cartridge that loads has the size its header says, so its bytes lie within the ROM. -/
theorem loadedMachineMeetsInvariant : Obligations.LoadedMachineMeetsInvariant := by
  intro image draw c p hload hdraw hpc hv hio hr
  obtain ⟨hrom, hsize, hram⟩ := loadCartridge_ok hload
  refine .powerOn hv hio hr fun c' hc' => ?_
  obtain rfl : c = c' := Option.some.inj (hpc.symm.trans hc')
  refine .reset ?_ (hram ▸ hdraw)
  rw [hrom, ← hsize]
  exact Memory.ok_ofList image

/-! ### O19: F's low nibble -/

/-- Settles O19: every write of F masks the low nibble (`Effect.flagsLow`), and the system instructions do not write F. -/
theorem flagsLowNibbleStaysZero : Obligations.FlagsLowNibbleStaysZero := by
  intro i s t hs h
  cases executes_of_exec h with
  | writes _ hu => exact hu.flagsLow hs
  | halt => exact hs
  | stop => exact hs
  | di => exact hs
  | ei => exact hs
  | reti _ hu => exact hu.flagsLow hs

/-! ### O21: what no instruction writes -/

/-- The system instructions write the execution state, DIV's accumulator and freeze, and the interrupt controller; what the PPU,
TIMA's accumulator and the joypad then hold is what register, flag and Bus writes leave. -/
theorem exec_ppu_timaAcc_joypad {i : Instr} {s t : State} (h : exec i s = .next t) :
    ∃ u, Kept s u ∧ t.ppu = u.ppu ∧ t.timer.timaAcc = u.timer.timaAcc ∧ t.joypad = u.joypad := by
  cases executes_of_exec h with
  | writes _ hu => exact ⟨_, hu.kept, rfl, rfl, rfl⟩
  | halt => exact ⟨s, .refl s, rfl, rfl, rfl⟩
  | stop => exact ⟨s, .refl s, rfl, rfl, rfl⟩
  | di => exact ⟨s, .refl s, rfl, rfl, rfl⟩
  | ei => exact ⟨s, .refl s, rfl, rfl, rfl⟩
  | reti _ hu => exact ⟨_, hu.kept, rfl, rfl, rfl⟩

/-- Settles O21: register, flag and Bus writes keep each of these fields (`Kept`). -/
theorem instructionsLeaveTickState : Obligations.InstructionsLeaveTickState := by
  intro i s t h
  obtain ⟨u, k, hppu, htima, hjoypad⟩ := exec_ppu_timaAcc_joypad h
  rw [hppu, htima, hjoypad]
  exact ⟨k.framebuffer, k.ly, k.mode, k.dots, k.coincidence, k.timaAcc, k.input⟩

end Sys2Proof.Machine
end

