-- ==== Sys2Proof/Proofs/Memory.lean ====
section
/-! PROOFS. The statements about the Bus (20_memory.md): what no step changes of a cartridge, reads after writes, R75's table,
MBC1's registers and banks, and the load of a cartridge. -/

namespace Sys2Proof.Machine

/-! ### O20: what no step changes of a cartridge -/

/-- The system instructions write no byte, and every other instruction writes through the Bus (`Kept.header`). -/
theorem exec_header {i : Instr} {s t : State} (h : exec i s = .next t) :
    t.cartridge.map Cartridge.header = s.cartridge.map Cartridge.header := by
  cases executes_of_exec h with
  | writes _ hu => exact hu.kept.header
  | halt => rfl
  | stop => rfl
  | di => rfl
  | ei => rfl
  | reti _ hu => exact hu.kept.header

theorem cpuExecute_header {s t : State} (h : cpuExecute s = .next t) :
    t.cartridge.map Cartridge.header = s.cartridge.map Cartridge.header := by
  unfold cpuExecute at h
  split at h
  · rw [retire_eq_next h]
  · exact exec_header (s := s.setPc (fetchedPc s)) h

/-- A dispatch writes memory by the push of PC alone (R413). -/
theorem dispatch_header (k : IrqSource) (s : State) :
    (dispatch k s).cartridge.map Cartridge.header = s.cartridge.map Cartridge.header := by
  rw [dispatch_eq]
  exact (Effect.refl.push16 s.cpu.pc).kept.header

theorem serviceInterrupts_header (s : State) :
    (serviceInterrupts s).cartridge.map Cartridge.header = s.cartridge.map Cartridge.header := by
  unfold serviceInterrupts
  split
  · rfl
  · split
    · rfl
    · exact dispatch_header _ s

theorem cpuPrelude_header (s : State) :
    (cpuPrelude s).cartridge.map Cartridge.header = s.cartridge.map Cartridge.header := by
  unfold cpuPrelude
  rw [serviceInterrupts_header, wakeChecks_cartridge]

/-- Settles O20: the EI-delay update and the ticks leave the cartridge, and the CPU's part of the step its header. -/
theorem romNeverChanges : Obligations.RomNeverChanges := by
  intro s t h
  obtain ⟨-, u, hu, rfl⟩ := step_eq_next h
  rw [ppuTick_cartridge, timerTick_cartridge, updateState_cartridge]
  exact (cpuExecute_header hu).trans (cpuPrelude_header s)

/-! ### O22: reads after writes -/

/-- Settles O22, by the laws of a store. -/
theorem busReadAfterWrite : Obligations.BusReadAfterWrite := by
  intro s a v
  exact ⟨fun h ha => memRead_memWrite_whole h v ha, fun _ hb hm => memRead_memWrite_outside s v hb hm,
    fun h => h.memWrite a v, memWrite_cpu a v s, memWrite_irq_ime a v s, memWrite_irq_imeSched a v s,
    memWrite_fault a v s⟩

/-! ### The cartridge's windows -/

theorem cartridgeWindow_iff {a : Word} :
    cartridgeWindow a = true ↔ a.toNat < 0x8000 ∨ 0xA000 ≤ a.toNat ∧ a.toNat < 0xC000 := by
  rw [← busOwner_cartridgeRom, ← busOwner_cartridgeRam]
  unfold cartridgeWindow
  cases busOwner a.toNat <;> simp

section
variable {s : State} {c : Cartridge} {a : Word}

theorem State.with_own_cartridge (hc : s.cartridge = some c) : { s with cartridge := some c } = s := by
  rw [← hc]

theorem memRead_romWindow (hc : s.cartridge = some c) (ha : a.toNat < 0x8000) : memRead a s = c.readRom a.toNat := by
  simp only [memRead, busOwner_cartridgeRom.2 ha, hc]

theorem memWrite_romWindow (hc : s.cartridge = some c) (v : Byte) (ha : a.toNat < 0x8000) :
    memWrite a v s = { s with cartridge := some (c.writeRom a.toNat v) } := by
  simp only [memWrite, busOwner_cartridgeRom.2 ha, hc, Option.map_some]

theorem memRead_ramWindow (hc : s.cartridge = some c) (la : 0xA000 ≤ a.toNat) (ua : a.toNat < 0xC000) :
    memRead a s = c.readRam a.toNat := by
  simp only [memRead, busOwner_cartridgeRam.2 ⟨la, ua⟩, hc]

theorem memWrite_ramWindow (hc : s.cartridge = some c) (v : Byte) (la : 0xA000 ≤ a.toNat) (ua : a.toNat < 0xC000) :
    memWrite a v s = { s with cartridge := some (c.writeRam a.toNat v) } := by
  simp only [memWrite, busOwner_cartridgeRam.2 ⟨la, ua⟩, hc, Option.map_some]

end

/-! ### O24: MBC1's registers -/

theorem Byte.extract_ramEnable (v : Byte) : v.extractLsb' 0 4 = 0xA#4 ↔ v.toNat % 16 = 0xA := by
  simp [BitVec.toNat_eq]

theorem Byte.extract_bank2 (v : Byte) : v.extractLsb' 0 2 = BitVec.ofNat 2 (v.toNat % 4) := by
  simp [BitVec.toNat_eq]

theorem Byte.getLsbD_zero (v : Byte) : v.getLsbD 0 = decide (v.toNat % 2 = 1) := by
  simp [BitVec.getLsbD, Nat.testBit_zero]

theorem Cartridge.romBanks_eq (c : Cartridge) : c.romBanks = 2 * 2 ^ c.romShift := Nat.shiftLeft_eq 2 c.romShift

/-- R81, with the number of banks written out. -/
theorem Cartridge.bank1Of_eq (c : Cartridge) (v : Byte) :
    c.bank1Of v =
      BitVec.ofNat 5 (if v.toNat % 32 &&& (2 * 2 ^ c.romShift - 1) = 0 then 1
        else v.toNat % 32 &&& (2 * 2 ^ c.romShift - 1)) := by
  rw [← c.romBanks_eq]
  rfl

section
variable {c : Cartridge} {a : Nat} (v : Byte)

theorem Cartridge.writeRom_ramEnable (hm : c.mapper = .mbc1) (h : a < 0x2000) :
    c.writeRom a v = { c with ramEnable := decide (v.toNat % 16 = 0xA) } := by
  simp only [Cartridge.writeRom, hm, if_pos h, Byte.extract_ramEnable]

theorem Cartridge.writeRom_bank1 (hm : c.mapper = .mbc1) (l : 0x2000 ≤ a) (h : a < 0x4000) :
    c.writeRom a v = { c with bank1 := c.bank1Of v } := by
  simp only [Cartridge.writeRom, hm, if_neg (Nat.not_lt.2 l), if_pos h]

theorem Cartridge.writeRom_bank2 (hm : c.mapper = .mbc1) (l : 0x4000 ≤ a) (h : a < 0x6000) :
    c.writeRom a v = { c with bank2 := BitVec.ofNat 2 (v.toNat % 4) } := by
  simp only [Cartridge.writeRom, hm, if_neg (show ¬a < 0x2000 by omega), if_neg (Nat.not_lt.2 l), if_pos h,
    Byte.extract_bank2]

theorem Cartridge.writeRom_bankMode (hm : c.mapper = .mbc1) (l : 0x6000 ≤ a) :
    c.writeRom a v = { c with bankMode := decide (v.toNat % 2 = 1) } := by
  simp only [Cartridge.writeRom, hm, if_neg (show ¬a < 0x2000 by omega), if_neg (show ¬a < 0x4000 by omega),
    if_neg (Nat.not_lt.2 l), Byte.getLsbD_zero]

end

/-- Settles O24: one write of the register per range (R80 to R83). -/
theorem mbc1RegisterWrites : Obligations.Mbc1RegisterWrites := by
  intro s c a v hc hm
  refine ⟨fun h => ?_, fun l h => ?_, fun l h => ?_, fun l h => ?_⟩
  · rw [memWrite_romWindow hc v (by omega), Cartridge.writeRom_ramEnable v hm h]
  · rw [memWrite_romWindow hc v (by omega), Cartridge.writeRom_bank1 v hm l h, Cartridge.bank1Of_eq]
  · rw [memWrite_romWindow hc v (by omega), Cartridge.writeRom_bank2 v hm l h]
  · rw [memWrite_romWindow hc v h, Cartridge.writeRom_bankMode v hm l]

/-! ### O25: MBC1's banks -/

section
variable {c : Cartridge}

/-- R85 in mode 0: `bank2` stands above the five bits of `bank1`, and the mask by `banks - 1` is the remainder by `banks`,
which is a power of two. -/
theorem Cartridge.upperBank_mode0 (h : c.bankMode = false) :
    c.upperBank = (c.bank2.toNat * 32 + c.bank1.toNat) % (2 * 2 ^ c.romShift) := by
  have hor : c.bank2.toNat <<< 5 ||| c.bank1.toNat = c.bank2.toNat * 32 + c.bank1.toNat := by
    rw [← Nat.shiftLeft_add_eq_or_of_lt c.bank1.isLt, Nat.shiftLeft_eq]
  have hbanks : c.romBanks = 2 ^ (c.romShift + 1) := by rw [c.romBanks_eq, Nat.pow_succ']
  rw [Cartridge.upperBank, h, if_neg Bool.false_ne_true, hor, hbanks, Nat.and_two_pow_sub_one_eq_mod, Nat.pow_succ']

theorem Cartridge.upperBank_mode1 (h : c.bankMode = true) : c.upperBank = c.bank1.toNat := if_pos h

theorem Cartridge.readRom_lower (hm : c.mapper = .mbc1) {a : Nat} (h : a < 0x4000) : c.readRom a = c.rom.read a := by
  simp only [Cartridge.readRom, hm, if_pos (show a < Config.romBankSize from h)]

theorem Cartridge.readRom_upper (hm : c.mapper = .mbc1) {a : Nat} (h : 0x4000 ≤ a) :
    c.readRom a = c.rom.read (c.upperBank * 0x4000 + (a - 0x4000)) := by
  simp only [Cartridge.readRom, hm, if_neg (show ¬a < Config.romBankSize from Nat.not_lt.2 h)]
  rfl

theorem Cartridge.ramOffset_reachable (hm : c.mapper = .mbc1) (he : c.ramEnable = true) (hb : 0 < c.ramBanks) (a : Nat) :
    c.ramOffset a = some (((if c.bankMode then c.bank2.toNat else 0) % c.ramBanks) * 0x2000 + (a - 0xA000)) := by
  simp only [Cartridge.ramOffset, hm, if_pos (And.intro he hb)]
  rfl

theorem Cartridge.ramOffset_unreachable (hm : c.mapper = .mbc1) (h : c.ramEnable = false ∨ c.ramBanks = 0) (a : Nat) :
    c.ramOffset a = none := by
  have hn : ¬(c.ramEnable = true ∧ 0 < c.ramBanks) := by
    rintro ⟨he, hb⟩
    rcases h with h | h
    · exact Bool.false_ne_true (h.symm.trans he)
    · omega
  simp only [Cartridge.ramOffset, hm, if_neg hn]

theorem Cartridge.ramOffset_romOnly (hm : c.mapper = .romOnly) (a : Nat) : c.ramOffset a = none := by
  simp only [Cartridge.ramOffset, hm]

theorem Cartridge.readRam_some {a k : Nat} (h : c.ramOffset a = some k) : c.readRam a = c.ram.read k := by
  simp only [Cartridge.readRam, h]

theorem Cartridge.writeRam_some {a k : Nat} (h : c.ramOffset a = some k) (v : Byte) :
    c.writeRam a v = { c with ram := c.ram.write k v } := by
  simp only [Cartridge.writeRam, h]

theorem Cartridge.readRam_none {a : Nat} (h : c.ramOffset a = none) : c.readRam a = 0xFF := by
  simp only [Cartridge.readRam, h, Config.openBusValue]

theorem Cartridge.writeRam_none {a : Nat} (h : c.ramOffset a = none) (v : Byte) : c.writeRam a v = c := by
  simp only [Cartridge.writeRam, h]

/-- A reachable byte of cartridge RAM reads back as written: the write does not move the banks. -/
theorem Cartridge.readRam_writeRam_same {a k : Nat} (h : c.ramOffset a = some k) (hw : c.ram.wf = true) (v : Byte) :
    (c.writeRam a v).readRam a = v := by
  rw [Cartridge.readRam_some (k := k) (by rw [Cartridge.writeRam_ramOffset, h]), Cartridge.writeRam_some h]
  exact Memory.read_write_same hw k v

/-- Cartridge RAM that is not reachable reads as the open bus and drops writes (R79, R86). -/
theorem memRead_memWrite_unreachable {s : State} {a : Word} (hc : s.cartridge = some c) (v : Byte) (la : 0xA000 ≤ a.toNat)
    (ua : a.toNat < 0xC000) (h : c.ramOffset a.toNat = none) : memRead a s = 0xFF ∧ memWrite a v s = s := by
  rw [memRead_ramWindow hc la ua, memWrite_ramWindow hc v la ua, Cartridge.readRam_none h, Cartridge.writeRam_none h,
    State.with_own_cartridge hc]
  exact ⟨rfl, rfl⟩

end

/-- Settles O25: the ROM windows read the banks of R84 and R85, and the RAM window the offset of R86. -/
theorem mbc1BankedAccess : Obligations.Mbc1BankedAccess := by
  intro s c a v hc hm
  refine ⟨fun h => ?_, fun l h h0 => ?_, fun l h h1 => ?_, fun la ua he hb => ?_, fun la ua h => ?_⟩
  · rw [memRead_romWindow hc (by omega), Cartridge.readRom_lower hm h]
  · rw [memRead_romWindow hc h, Cartridge.readRom_upper hm l, Cartridge.upperBank_mode0 h0]
  · rw [memRead_romWindow hc h, Cartridge.readRom_upper hm l, Cartridge.upperBank_mode1 h1]
  · have hk := Cartridge.ramOffset_reachable hm he hb a.toNat
    refine ⟨?_, ?_, fun hw => ?_⟩
    · rw [memRead_ramWindow hc la ua, Cartridge.readRam_some hk]
    · rw [memWrite_ramWindow hc v la ua, Cartridge.writeRam_some hk]
    · rw [memWrite_ramWindow hc v la ua, memRead_ramWindow rfl la ua]
      exact Cartridge.readRam_writeRam_same hk hw v
  · exact memRead_memWrite_unreachable hc v la ua (Cartridge.ramOffset_unreachable hm h a.toNat)

/-! ### O26: a ROM-only cartridge, and none -/

/-- R73: with no cartridge nothing answers a read of its windows or takes a write. -/
theorem memRead_memWrite_absent {s : State} {a : Word} (hc : s.cartridge = none) (v : Byte) (ha : cartridgeWindow a = true) :
    memRead a s = 0xFF ∧ memWrite a v s = s := by
  have hs : { s with cartridge := none } = s := by rw [← hc]
  rcases cartridgeWindow_iff.1 ha with h | h
  · simp only [memRead, memWrite, busOwner_cartridgeRom.2 h, hc, Option.map_none, hs, Config.openBusValue, and_self]
  · simp only [memRead, memWrite, busOwner_cartridgeRam.2 h, hc, Option.map_none, hs, Config.openBusValue, and_self]

theorem Cartridge.readRom_romOnly {c : Cartridge} (hm : c.mapper = .romOnly) (a : Nat) : c.readRom a = c.rom.read a := by
  simp only [Cartridge.readRom, hm]

theorem Cartridge.writeRom_romOnly {c : Cartridge} (hm : c.mapper = .romOnly) (a : Nat) (v : Byte) : c.writeRom a v = c := by
  simp only [Cartridge.writeRom, hm]

/-- Settles O26: R73 for the absent cartridge; R79 for a ROM-only one, which has no register and no RAM. -/
theorem unbankedAndAbsentCartridge : Obligations.UnbankedAndAbsentCartridge := by
  intro s a v ha
  refine ⟨fun hc => memRead_memWrite_absent hc v ha, fun c hc hm => ?_⟩
  rcases cartridgeWindow_iff.1 ha with h | ⟨la, ua⟩
  · refine ⟨fun _ => ?_, fun la => absurd h (by omega), ?_⟩
    · rw [memRead_romWindow hc h, Cartridge.readRom_romOnly hm]
    · rw [memWrite_romWindow hc v h, Cartridge.writeRom_romOnly hm, State.with_own_cartridge hc]
  · obtain ⟨hread, hwrite⟩ := memRead_memWrite_unreachable hc v la ua (Cartridge.ramOffset_romOnly hm a.toNat)
    exact ⟨fun h => absurd h (by omega), fun _ => hread, hwrite⟩

/-! ### O27: the load of a cartridge -/

theorem romSize_eq (shift : Nat) : romSize shift = 0x8000 * 2 ^ shift := Nat.shiftLeft_eq 0x8000 shift

/-- R78: the four supported types. -/
theorem mapperOfType_eq (type : Byte) :
    mapperOfType type =
      if type ∈ ([0x00, 0x01, 0x02, 0x03] : List Byte) then some (if type = 0x00 then .romOnly else .mbc1) else none := by
  unfold mapperOfType
  by_cases h : type = 0x00
  · simp [h]
  · simp only [h, if_false, List.mem_cons, List.not_mem_nil, or_false, false_or]

section
variable {image : List Byte} {draw : Memory}

theorem loadCartridge_error {e : LoadError}
    (h : checkHeader (image.getD 0x147 0) (image.getD 0x148 0) image.length = .error e) :
    loadCartridge image draw = .error e := by
  simp only [loadCartridge, h]

theorem loadCartridge_of_checkHeader {m : Mapper}
    (h : checkHeader (image.getD 0x147 0) (image.getD 0x148 0) image.length = .ok m) :
    loadCartridge image draw =
      .ok { mapper := m, romShift := (image.getD 0x148 0).toNat, rom := Memory.ofList image,
            ramBanks := ramBanksOfId (image.getD 0x149 0), ram := draw, ramEnable := false, bank1 := 1, bank2 := 0,
            bankMode := false } := by
  simp only [loadCartridge, h]

/-- R78, R502: a refused load inserts no cartridge. -/
theorem bootWith_of_error {e : LoadError} (h : loadCartridge image draw = .error e) : bootWith image draw = State.reset := by
  simp only [bootWith, h]

end

section
variable {type shift : Byte} {size : Nat}

theorem checkHeader_unsupported (h : type ∉ ([0x00, 0x01, 0x02, 0x03] : List Byte)) :
    checkHeader type shift size = .error (.unsupportedType type) := by
  simp only [checkHeader, mapperOfType_eq, if_neg h]

theorem checkHeader_wrongSize (h : type ∈ ([0x00, 0x01, 0x02, 0x03] : List Byte)) (hs : size ≠ 0x8000 * 2 ^ shift.toNat) :
    checkHeader type shift size = .error (.sizeMismatch (0x8000 * 2 ^ shift.toNat) size) := by
  simp only [checkHeader, mapperOfType_eq, if_pos h, romSize_eq, if_neg hs]

theorem checkHeader_supported (h : type ∈ ([0x00, 0x01, 0x02, 0x03] : List Byte)) (hs : size = 0x8000 * 2 ^ shift.toNat) :
    checkHeader type shift size = .ok (if type = 0x00 then .romOnly else .mbc1) := by
  simp only [checkHeader, mapperOfType_eq, if_pos h, romSize_eq, if_pos hs]

end

/-- Settles O27: the header's checks decide between the refusals and the load (R78). -/
theorem cartridgeLoad : Obligations.CartridgeLoad := by
  intro image draw _
  refine ⟨fun ht _ => ?_, fun ht hs => ?_, ?_, fun ht hs => ?_⟩
  · exact loadCartridge_error (checkHeader_unsupported ht)
  · exact loadCartridge_error (checkHeader_wrongSize ht hs)
  · rintro ⟨e, he⟩
    rw [bootWith_of_error he]
    rfl
  · exact ⟨_, loadCartridge_of_checkHeader (checkHeader_supported ht hs), rfl, rfl, rfl,
      fun k _ => Memory.read_ofList image k, rfl⟩

/-! ### O23: R75's table -/

/-- The five bits of TAC that do not exist read 1 (R75). -/
theorem State.readIo_tac (s : State) : s.readIo 0xFF07 = 0xF8 ||| s.timer.tac.zeroExtend 8 := by
  change 0b11111#5 ++ s.timer.tac = _
  generalize s.timer.tac = x
  revert x
  decide

/-- The three bits of IF that do not exist read 1 (R75). -/
theorem State.readIo_iflag (s : State) : s.readIo 0xFF0F = 0xE0 ||| s.irq.iflag.zeroExtend 8 := by
  change 0b111#3 ++ s.irq.iflag = _
  generalize s.irq.iflag = x
  revert x
  decide

theorem Serial.writeSc_eq (p : Serial) (v : Byte) :
    p.writeSc v = { p with sc := v, log := if v = 0x81 then p.log ++ [p.sb] else p.log } := by
  unfold Serial.writeSc
  split <;> rfl

section
variable {a : Word}

theorem memRead_io (ha : busOwner a.toNat = .io) (s : State) : memRead a s = s.readIo a.toNat := by
  simp only [memRead, ha]

theorem memWrite_io (ha : busOwner a.toNat = .io) (v : Byte) (s : State) : memWrite a v s = s.writeIo a.toNat v := by
  simp only [memWrite, ha]

/-- The named addresses of R75 in the IO block are the only ones that are no plain byte. -/
theorem ioReg_of_unnamed (hhi : a.toNat ≤ 0xFF7F)
    (h : a ∉ ([0xFF00, 0xFF01, 0xFF02, 0xFF04, 0xFF05, 0xFF06, 0xFF07, 0xFF0F, 0xFF40, 0xFF41, 0xFF42, 0xFF43, 0xFF44, 0xFF45,
      0xFF46, 0xFF47, 0xFF48, 0xFF49, 0xFF4A, 0xFF4B] : List Word)) : ioReg a.toNat = .plain := by
  simp only [List.mem_cons, BitVec.toNat_eq, not_or] at h
  unfold ioReg
  split <;> simp_all

end

/-- Settles O23: each named address selects its row of the table; P1, TAC, IF and STAT read as a concatenation of fields. -/
theorem ioRegisterTable : Obligations.IoRegisterTable := by
  intro s v
  refine ⟨⟨s.readP1_val, rfl⟩, ⟨rfl, rfl⟩, ⟨rfl, ?sc⟩, ⟨rfl, rfl⟩, ⟨rfl, rfl⟩, ⟨rfl, rfl⟩, ⟨s.readIo_tac, rfl⟩,
    ⟨s.readIo_iflag, rfl⟩, ⟨rfl, rfl⟩, ⟨s.readStat_val, rfl⟩, ⟨rfl, rfl⟩, ⟨rfl, rfl⟩, ⟨rfl, rfl⟩, ⟨rfl, rfl⟩, ⟨rfl, rfl⟩,
    ⟨rfl, rfl⟩, ⟨rfl, rfl⟩, ⟨rfl, rfl⟩, ⟨rfl, rfl⟩, ⟨rfl, rfl⟩, ⟨rfl, rfl⟩, fun a hlo hhi h => ?plain⟩
  case sc =>
    rw [← Serial.writeSc_eq]
    rfl
  case plain =>
    have ho : busOwner a.toNat = .io := busOwner_io.2 (.inl ⟨hlo, by omega⟩)
    rw [memRead_io ho, memWrite_io ho]
    simp only [State.readIo, State.writeIo, ioReg_of_unnamed hhi h, and_self]

end Sys2Proof.Machine
end

