-- ==== Sys2Proof/Proofs/Encoding.lean ====
section
/-! PROOFS. The statements about the encoding (30_encoding.md): the round trip both ways, the lengths, and the words written
out from the rules. The encoder's bytes are followed form by form, the decoder's grids cell by cell. -/

namespace Sys2Proof

/-! ### The CB page's cells, by the fields of R121 -/

theorem cbInstr_shift (op : ShiftOp) (l : Loc) : cbInstr (0b00#2 ++ op.code ++ l.code) = instrShift op l := by
  rcases l with (_ | _ | _ | _ | _ | _ | _) | _ <;> cases op <;> rfl

theorem cbInstr_bit (b : Fin 8) (l : Loc) : cbInstr (0b01#2 ++ code3 b ++ l.code) = instrBit b l := by
  rcases l with (_ | _ | _ | _ | _ | _ | _) | _ <;> revert b <;> decide

theorem cbInstr_res (b : Fin 8) (l : Loc) : cbInstr (0b10#2 ++ code3 b ++ l.code) = instrRes b l := by
  rcases l with (_ | _ | _ | _ | _ | _ | _) | _ <;> revert b <;> decide

theorem cbInstr_set (b : Fin 8) (l : Loc) : cbInstr (0b11#2 ++ code3 b ++ l.code) = instrSet b l := by
  rcases l with (_ | _ | _ | _ | _ | _ | _) | _ <;> revert b <;> decide

theorem decode_cbPage {cb : Byte} {i : Instr} (rest : List Byte) (h : cbInstr cb = i) :
    decode ([0xCB, cb] ++ rest) = .ok (i, rest) :=
  decode_two rest rfl fun _ => h

/-! ### O1: the decoder reads back the bytes of every form -/

/-- A 16-bit operand is read low byte first (R113). -/
theorem decode_word {op : Byte} {mk : Word → Instr} (nn : Word) (rest : List Byte) (hl : instrLength op = 3)
    (h : ∀ p q, decodeOne op p q = mk (Word.ofBytes q p)) : decode ([op, nn.lo, nn.hi] ++ rest) = .ok (mk nn, rest) :=
  decode_three rest hl (by rw [h, Word.ofBytes_hi_lo])

/-- The bytes of a form decode to its row. The length of the first byte and the cell of the grid are computed once the fields
in that byte are fixed, whatever the parameter bytes are. -/
theorem decode_bytes (f : Form) (rest : List Byte) (hf : f.instr.wf = true) :
    decode (f.bytes ++ rest) = .ok (f.instr, rest) := by
  cases f with
  | ldhAC | ldhCA | ldSpHl | daa | cpl | scf | ccf | rlca | rrca | rla | rra | jpHl | ret | reti | nop | halt | di | ei =>
    exact decode_one rest rfl fun _ _ => rfl
  | ldRegReg dst src => cases dst <;> cases src <;> exact decode_one rest rfl fun _ _ => rfl
  | ldRegHl x | ldHlReg x | ldAInd x | ldIndA x | push x | pop x | addHl x | inc16 x | dec16 x | retCond x | illegal x =>
    cases x <;> exact decode_one rest rfl fun _ _ => rfl
  | inc8 l | dec8 l => rcases l with (_ | _ | _ | _ | _ | _ | _) | _ <;> exact decode_one rest rfl fun _ _ => rfl
  | rst t => fin_cases t <;> exact decode_one rest rfl fun _ _ => rfl
  | alu op src =>
    cases src with
    | loc l =>
      rcases l with (_ | _ | _ | _ | _ | _ | _) | _ <;> cases op <;> exact decode_one rest rfl fun _ _ => rfl
    | imm n => cases op <;> exact decode_two rest rfl fun _ => rfl
  | ldHlImm n | ldhAImm n | ldhImmA n | addSpE n | ldHlSpE n | jr n | stop n => exact decode_two rest rfl fun _ => rfl
  | ldRegImm x n | jrCond x n => cases x <;> exact decode_two rest rfl fun _ => rfl
  | shift op l => exact decode_cbPage rest (cbInstr_shift op l)
  | bit b l => exact decode_cbPage rest (cbInstr_bit b l)
  | res b l => exact decode_cbPage rest (cbInstr_res b l)
  | set b l => exact decode_cbPage rest (cbInstr_set b l)
  | ldAAbs nn | ldAbsA nn | ldAbsSp nn | jp nn | call nn => exact decode_word nn rest rfl fun _ _ => rfl
  | ldPairImm x nn | jpCond x nn | callCond x nn => cases x <;> exact decode_word nn rest rfl fun _ _ => rfl
  | prefixCb cb => exact absurd hf Bool.false_ne_true

/-- Settles O1: every instruction is the row of its form, and the bytes of each form decode to its row. -/
theorem encodeThenDecode : Obligations.EncodeThenDecode := by
  intro i rest hi
  have h := decode_bytes i.form rest
  rw [Form.instr_form] at h
  exact h hi

/-! ### The grids, read back by the encoder -/

/-- Row `r` of the 16 × 16 grid that holds `f op` in the cell of `op`. -/
def byteRow {α : Type} (f : Byte → α) (r : Nat) : List α := (List.range 16).map fun c => f (BitVec.ofNat 8 (16 * r + c))

@[inherit_doc byteRow] def byteGrid {α : Type} (f : Byte → α) : List (List α) := (List.range 16).map (byteRow f)

theorem gridAt_byteGrid {α : Type} (f : Byte → α) (op : Byte) (dflt : α) : gridAt (byteGrid f) op dflt = f op := by
  have hrow : op.toNat / 16 < 16 := by omega
  have hcol : op.toNat % 16 < 16 := by omega
  simp [gridAt, byteGrid, byteRow, List.getD_eq_getElem?_getD, hrow, hcol, Nat.div_add_mod]

/-- To know `f` of every cell of a grid, it is enough to know the grid of all `f`s. -/
theorem gridAt_of_map_eq {α β : Type} {f : α → β} {g : Byte → β} {grid : List (List α)}
    (h : grid.map (List.map f) = byteGrid g) (op : Byte) (dflt : α) : f (gridAt grid op dflt) = g op := by
  rw [← gridAt_byteGrid g op (f dflt), ← h, gridAt, gridAt, ← List.map_nil (f := f), List.getD_map, List.getD_map]

/-- Whether an instruction is well formed, and its bytes. -/
def reading (i : Instr) : Bool × List Byte := (i.wf, encode i)

/-- The bytes of an instruction of first byte `op`, of the length that byte fixes (R110); `n` and `nn` are its parameter
bytes as the grid's row takes them (R113). -/
def opcodeWord (n : Byte) (nn : Word) (op : Byte) : List Byte :=
  op :: match instrLength op with
    | 1 => []
    | 2 => [n]
    | _ => [nn.lo, nn.hi]

theorem cbGrid_reading : cbGrid.map (List.map reading) = byteGrid fun cb => (true, [0xCB, cb]) := rfl

theorem reading_cbInstr (cb : Byte) : reading (cbInstr cb) = (true, [0xCB, cb]) := gridAt_of_map_eq cbGrid_reading cb .nop

/-- Each cell of the primary page is a well-formed instruction whose bytes begin with the cell's opcode. -/
theorem primaryGrid_reading (n : Byte) (nn : Word) :
    (primaryGrid n nn).map (List.map reading) = byteGrid fun op => (true, opcodeWord n nn op) := by
  simp only [primaryGrid, primaryRowC, List.map_cons, reading_cbInstr]
  rfl

theorem reading_decodeOne (op p q : Byte) : reading (decodeOne op p q) = (true, opcodeWord p (Word.ofBytes q p) op) :=
  gridAt_of_map_eq (primaryGrid_reading p (Word.ofBytes q p)) op .nop

theorem opcodeWord_ofBytes (op p q : Byte) : opcodeWord p (Word.ofBytes q p) op = op :: [p, q].take (instrLength op - 1) := by
  obtain ⟨hl, hu⟩ := instrLength_bounds op
  simp only [opcodeWord, Word.lo_ofBytes, Word.hi_ofBytes]
  interval_cases instrLength op <;> rfl

theorem decodeOne_wf (op p q : Byte) : (decodeOne op p q).wf = true := congrArg Prod.fst (reading_decodeOne op p q)

theorem take_parameters {k : Nat} {rest : List Byte} (h2 : k ≤ 2) (h : k ≤ rest.length) :
    [rest.getD 0 0, rest.getD 1 0].take k = rest.take k := by
  match k, rest with
  | 0, _ => rfl
  | 1, _ :: _ => rfl
  | 2, _ :: _ :: _ => rfl
  | 1, [] | 2, [] | 2, [_] => exact absurd h (by simp)
  | k + 3, _ => omega

/-- The encoding gives back the first byte and the parameter bytes it asks for. -/
theorem encode_decodeOne {op : Byte} {rest : List Byte} (h : instrLength op - 1 ≤ rest.length) :
    encode (decodeOne op (rest.getD 0 0) (rest.getD 1 0)) = op :: rest.take (instrLength op - 1) := by
  have hword := congrArg Prod.snd (reading_decodeOne op (rest.getD 0 0) (rest.getD 1 0))
  have h2 : instrLength op - 1 ≤ 2 := Nat.sub_le_sub_right (instrLength_bounds op).2 1
  rwa [opcodeWord_ofBytes, take_parameters h2 h] at hword

/-- What the decoder reads: a first byte, the parameter bytes it asks for, and the rest. -/
theorem decode_eq_ok {bytes rest : List Byte} {i : Instr} (h : decode bytes = .ok (i, rest)) :
    ∃ op tail, bytes = op :: tail ∧ instrLength op - 1 ≤ tail.length ∧ i = decodeOne op (tail.getD 0 0) (tail.getD 1 0) ∧
      rest = tail.drop (instrLength op - 1) := by
  cases bytes with
  | nil => exact absurd h (by simp [decode])
  | cons op tail =>
    rw [decode_cons] at h
    split at h
    · cases h
    · cases h
      exact ⟨op, tail, rfl, by omega, rfl, rfl⟩

/-- Settles O2: the grids' cells are encoded by their opcode and the parameter bytes taken. -/
theorem decodeThenEncode : Obligations.DecodeThenEncode := by
  intro bytes rest i h
  obtain ⟨op, tail, rfl, hlen, rfl, rfl⟩ := decode_eq_ok h
  refine ⟨decodeOne_wf _ _ _, ?_⟩
  rw [encode_decodeOne hlen, List.cons_append, List.take_append_drop]

/-- Settles O3: given the parameter bytes, the decoder takes just them, and the encoding gives them back. -/
theorem lengthFromFirstByte : Obligations.LengthFromFirstByte := by
  intro op
  obtain ⟨hl, hu⟩ := instrLength_bounds op
  refine ⟨hl, hu, fun params rest hp => ?_⟩
  have hn : instrLength op - 1 = params.length := by omega
  have hlen : instrLength op - 1 ≤ (params ++ rest).length := by simp [hn]
  refine ⟨decodeOne op ((params ++ rest).getD 0 0) ((params ++ rest).getD 1 0), ?_, ?_⟩
  · rw [List.cons_append, decode_cons, if_neg (Nat.not_lt.2 hlen), hn, List.drop_left]
  · rw [encode_decodeOne hlen, hn, List.take_left, List.length_cons, hp]

/-- Settles O4, by running the decoder on each word. -/
theorem specWordsDecode : Obligations.SpecWordsDecode :=
  ⟨rfl, rfl, rfl, rfl, rfl, rfl, rfl, rfl, rfl, rfl, rfl, rfl, rfl, rfl, rfl, rfl, rfl, rfl⟩

end Sys2Proof
end

