-- ==== Sys2Proof/Proofs/Load8.lean ====
section
/-! PROOFS. The statements about the 8-bit loads and stores (40_load8.md): each instruction's form says which registers and
which byte it writes, and what it leaves follows from those writes alone. -/

namespace Sys2Proof.Machine

/-! ### O35: loads of a register -/

/-- An instruction whose form's operation sets one register loads it. -/
theorem Runs.loadsReg {i : Instr} {f : Form} {bytes : List Byte} {n : Nat} {s : State} {r : Reg8} {v : Byte}
    (hf : i.form = f) (he : f.bytes = bytes) (hx : formMeaning f s = retire n (s.setReg r v)) :
    Runs i bytes n s (LoadsReg r v s) := by
  subst hf
  exact .of_retire he hx (State.setReg_cycles s r v) (.setReg r v s _)

/-- Settles O35: each form sets the destination and does nothing else. -/
theorem registerLoads : Obligations.RegisterLoads := fun _ _ _ _ =>
  ⟨.loadsReg (Instr.form_instr _) rfl rfl, .loadsReg (Instr.form_instr _) rfl rfl,
    .loadsReg (Instr.form_instr _) rfl rfl⟩

/-! ### O36: loads of A -/

/-- Writing HL leaves every register but H and L (R22). -/
theorem State.keepsBut_setHl (s : State) (w : Word) : KeepsBut [.h, .l] s (s.setHl w) := by
  intro r hr
  cases r with
  | h | l => simp at hr
  | b | c | d | e | a => rfl

/-- An instruction whose form's operation sets A, then HL (R215, R217), writes no other register and nothing outside. -/
theorem Runs.loadsA_setHl {i : Instr} {bytes : List Byte} {n : Nat} {s : State} {v : Byte} {w : Word}
    (he : i.form.bytes = bytes) (hx : formMeaning i.form s = retire n ((s.setReg .a v).setHl w)) :
    Runs i bytes n s
      (fun t => t.cpu.a = v ∧ t.hl = w ∧ KeepsBut [.a, .h, .l] s t ∧ KeepsFSpPc s t ∧ KeepsOutside s t) := by
  refine .of_retire he hx rfl ⟨rfl, State.hl_setHl _ w, fun r hr => ?_, ⟨rfl, rfl, rfl⟩, ?_⟩
  · obtain ⟨ha, hhl⟩ := not_or.1 (mt List.mem_cons.2 hr)
    exact (State.keepsBut_setHl (s.setReg .a v) w r hhl).trans ((State.reg_setReg s .a r v).trans (if_neg ha))
  · apply KeepsOutside.of_fields <;> rfl

/-- Settles O36: each form sets A to the byte at its address; the last two then set HL. -/
theorem accumulatorLoads : Obligations.AccumulatorLoads := fun _ _ _ =>
  ⟨.loadsReg rfl rfl rfl, .loadsReg rfl rfl rfl, .loadsReg rfl rfl rfl, .loadsReg rfl rfl rfl, .loadsReg rfl rfl rfl,
    .loadsA_setHl rfl rfl, .loadsA_setHl rfl rfl⟩

/-! ### O37: stores of a byte -/

/-- An instruction whose form's operation is one Bus write stores the byte and leaves the CPU. -/
theorem Runs.storesByte {i : Instr} {f : Form} {bytes : List Byte} {n : Nat} {s : State} {a : Word} {v : Byte}
    (hf : i.form = f) (he : f.bytes = bytes) (hx : formMeaning f s = retire n (memWrite a v s)) :
    Runs i bytes n s (fun t => StoresByte a v s t ∧ t.cpu = s.cpu) := by
  subst hf
  exact .of_retire he hx (memWrite_cycles a v s) (StoresByte.plain a v s _)

/-- An instruction whose form's operation is one Bus write, then HL (R216, R218), stores the byte and writes no other
register. -/
theorem Runs.storesByte_setHl {i : Instr} {bytes : List Byte} {n : Nat} {s : State} {a w : Word} {v : Byte}
    (he : i.form.bytes = bytes) (hx : formMeaning i.form s = retire n ((memWrite a v s).setHl w)) :
    Runs i bytes n s (fun t => StoresByte a v s t ∧ t.hl = w ∧ KeepsBut [.h, .l] s t ∧ KeepsFSpPc s t) := by
  refine .of_retire he hx (by simp) ⟨.of_memWrite a v s _ _ (by simp) (by simp), State.hl_setHl _ w, fun r hr => ?_, ?_⟩
  · exact (State.keepsBut_setHl (memWrite a v s) w r hr).trans (memWrite_reg a v s r)
  · constructor <;> simp

/-- The Bus write leaves HL, so the step after it is from the old HL. -/
theorem storeIndA_hlDec (s : State) :
    storeIndA .hlDec s = retire 8 ((memWrite s.hl s.cpu.a s).setHl (s.hl - 1)) := by
  simp [storeIndA, State.indAddr, State.indStep]

@[inherit_doc storeIndA_hlDec]
theorem storeIndA_hlInc (s : State) :
    storeIndA .hlInc s = retire 8 ((memWrite s.hl s.cpu.a s).setHl (s.hl + 1)) := by
  simp [storeIndA, State.indAddr, State.indStep]

/-- Settles O37: each form is one Bus write at its address; the last two then set HL. -/
theorem byteStores : Obligations.ByteStores := fun _ _ _ s =>
  ⟨.storesByte (Instr.form_instr _) rfl rfl, .storesByte rfl rfl rfl, .storesByte rfl rfl rfl, .storesByte rfl rfl rfl,
    .storesByte rfl rfl rfl, .storesByte rfl rfl rfl, .storesByte rfl rfl rfl,
    .storesByte_setHl rfl (storeIndA_hlDec s), .storesByte_setHl rfl (storeIndA_hlInc s)⟩

end Sys2Proof.Machine
end

