-- ==== Sys2Proof/Proofs/Load16.lean ====
section
/-! PROOFS. The statements about the 16-bit loads and the stack (41_load16.md): pairs written, words stored and pushed, pairs
popped, and the return that undoes a call. -/

namespace Sys2Proof.Machine

/-! ### O38: writes of a pair -/

/-- Settles O38: each form sets its pair and does nothing else. -/
theorem pairWrites : Obligations.PairWrites := fun p nn s =>
  ⟨.of_form rfl rfl (State.setPair_cycles s p nn) (.setPair p nn s _), .of_retire rfl rfl rfl (.setPair .sp s.hl s _),
    .of_form rfl rfl (State.setPair_cycles s p _) (.setPair p _ s _),
    .of_form rfl rfl (State.setPair_cycles s p _) (.setPair p _ s _)⟩

/-! ### O39: stores of a word -/

theorem Word.ne_succ (w : Word) : w ≠ w + 1 := by bv_omega

/-- Two stores that change no register. -/
theorem StoresTwo.plain {a b : Word} (hne : a ≠ b) (v w : Byte) (s : State) (n : Nat) :
    StoresTwo a v b w s { memWrite b w (memWrite a v s) with cycles := n } ∧
      ({ memWrite b w (memWrite a v s) with cycles := n } : State).cpu = s.cpu := by
  have h := StoresTwo.of_memWrite hne v w s s.cpu n rfl rfl
  rw [State.with_own_cpu (by simp)] at h
  exact ⟨h, by simp⟩

/-- Push16 leaves PC. -/
theorem push16_setPc_self (v : Word) (s : State) : (push16 v s).setPc s.cpu.pc = push16 v s := by
  rw [push16_eq]
  rfl

/-- An instruction whose form's operation is Push16 pushes its word and leaves PC. -/
theorem Runs.pushes {i : Instr} {bytes : List Byte} {n : Nat} {s : State} {v : Word}
    (he : i.form.bytes = bytes) (hx : formMeaning i.form s = retire n (push16 v s)) :
    Runs i bytes n s (fun t => Pushes v s t ∧ t.cpu.pc = s.cpu.pc) := by
  rw [← push16_setPc_self] at hx
  exact .of_retire he hx (push16_cycles v s) ⟨.push16 v s.cpu.pc s _, rfl⟩

/-- Settles O39: LD (nn),SP is two Bus writes, at nn and at the address after it; each PUSH is Push16 of its pair. -/
theorem wordStores : Obligations.WordStores := fun nn s =>
  ⟨.of_retire rfl rfl (by simp) (StoresTwo.plain (Word.ne_succ nn) s.cpu.sp.lo s.cpu.sp.hi s _), .pushes rfl rfl,
    .pushes rfl rfl, .pushes rfl rfl, .pushes rfl rfl⟩

/-! ### O40: pops -/

/-- The 8-bit registers, F aside, of a pair that is pushed and popped (R21, R116). -/
def stackPairRegs : StackPair → List Reg8
  | .bc => [.b, .c]
  | .de => [.d, .e]
  | .hl => [.h, .l]
  | .af => [.a]

/-- Popping into a pair, whatever the count becomes, changes no register but the pair's own. -/
theorem keepsBut_popInto (p : StackPair) (v : Word) (s : State) (n : Nat) :
    KeepsBut (stackPairRegs p) s { (afterPop s).setStackPair p v with cycles := n } := by
  intro r hr
  cases p <;> cases r <;> simp [stackPairRegs] at hr <;> rfl

/-- Popping into a pair changes nothing outside the registers and the count. -/
theorem keepsOutside_popInto (p : StackPair) (v : Word) (s : State) (n : Nat) :
    KeepsOutside s { (afterPop s).setStackPair p v with cycles := n } := by
  apply KeepsOutside.of_fields <;> simp [afterPop]

/-- Settles O40: each POP sets SP, then its pair to the word that was at SP; AF is set with F's low nibble masked. -/
theorem popLoadsPair : Obligations.PopLoadsPair := fun s =>
  have regs p := keepsBut_popInto p (popped s) s (s.cycles + 12)
  have outside p := keepsOutside_popInto p (popped s) s (s.cycles + 12)
  ⟨.of_retire rfl rfl rfl ⟨State.bc_setBc _ _, rfl, regs .bc, rfl, rfl, outside .bc⟩,
    .of_retire rfl rfl rfl ⟨State.de_setDe _ _, rfl, regs .de, rfl, rfl, outside .de⟩,
    .of_retire rfl rfl rfl ⟨State.hl_setHl _ _, rfl, regs .hl, rfl, rfl, outside .hl⟩,
    .of_retire rfl rfl rfl ⟨rfl, rfl, rfl, regs .af, rfl, outside .af⟩⟩

/-! ### O41: the return from a call -/

/-- An address that stores whole is above the MBC registers. -/
theorem le_toNat_of_storesWhole {a : Word} (h : storesWhole a = true) : 0x8000 ≤ a.toNat := by
  by_contra hlt
  have hw : cartridgeWindow a = true := cartridgeWindow_iff.2 (.inl (Nat.lt_of_not_le hlt))
  exact Bool.false_ne_true ((cartridgeWindow_of_storesWhole h).symm.trans hw)

/-- A word pushed where both bytes store whole is the word at the new SP (R236, R237). -/
theorem Pushes.stackTop_eq {v : Word} {s t : State} (h : Pushes v s t) (hc : s.Canonical)
    (h1 : storesWhole (s.cpu.sp - 1) = true) (h2 : storesWhole (s.cpu.sp - 2) = true) : stackTop t = v := by
  have hhi : s.cpu.sp - 2 + 1 = s.cpu.sp - 1 := by bv_omega
  rw [stackTop, h.sp, hhi, h.store.storedFirst hc h1, h.store.storedSecond hc h2, Word.ofBytes_hi_lo]

theorem exec_call (nn : Word) (s : State) :
    ∃ t, exec (.call_nn nn) s = .next t ∧ t.cpu.pc = nn ∧ Pushes s.cpu.pc s t :=
  ⟨_, rfl, rfl, .push16 s.cpu.pc nn s _⟩

theorem exec_ret (s : State) : ∃ t, exec .ret s = .next t ∧ ReturnsFrom s t :=
  ⟨_, rfl, .returnFromStack s _⟩

/-- Settles O41: the CALL pushes PC, and the RET pops the word the CALL pushed. -/
theorem returnUndoesCall : Obligations.ReturnUndoesCall := by
  intro nn s hc h1 h2
  obtain ⟨t, ht, hpc, hcall⟩ := exec_call nn s
  obtain ⟨u, hu, hret⟩ := exec_ret t
  refine ⟨t, u, ht, hu, hpc, hret.pc.trans (hcall.stackTop_eq hc h1 h2), ?sp, hret.f.trans hcall.f,
    fun r hr => (hret.regs r hr).trans (hcall.regs r hr), fun b hb1 hb2 => ?bytes⟩
  case sp =>
    rw [hret.sp, hcall.sp]
    exact BitVec.sub_add_cancel ..
  case bytes =>
    have habove := And.intro (le_toNat_of_storesWhole h1) (le_toNat_of_storesWhole h2)
    exact (hret.outside.bytes b).trans (hcall.store.others b hb1 hb2 (.inl habove))

end Sys2Proof.Machine
end

