-- ==== Sys2Proof/Proofs/Alu8.lean ====
section
/-! PROOFS. The statements about 8-bit arithmetic and logic (42_alu8.md): what the shared operation of each form writes, said
through its result function; the values of those functions are in Laws/Values. -/

namespace Sys2Proof.Machine

/-! ### ADD to OR write A and the flags, CP the flags alone -/

/-- An ALU instruction other than CP writes its result function's value to A, and its flags (R253 to R273). -/
theorem runs_alu (op : AluOp) (src : Src8) (s : State) (hop : op ≠ .cp := by decide) :
    Runs (Form.alu op src).instr (Form.alu op src).bytes (aluCycles src) s
      (WritesReg .a (aluResult op s.cpu.a (s.readSrc src) s.flags.c).1
        (aluResult op s.cpu.a (s.readSrc src) s.flags.c).2 s) :=
  .of_form rfl (congrArg (retire _) (if_neg hop)) rfl (.setReg .a _ _ s _)

/-- CP writes only the flags of the difference (R274 to R276). -/
theorem runs_cp (src : Src8) (s : State) :
    Runs (Form.alu .cp src).instr (Form.alu .cp src).bytes (aluCycles src) s
      (WritesFlags (sub8 s.cpu.a (s.readSrc src) false).2 s) :=
  .of_form rfl rfl rfl (.setFlags _ s _)

/-! ### O42: sums -/

/-- Rule R250 is what `add8` computes. -/
theorem addsToA_eq (v : Byte) (carry : Bool) (s : State) :
    AddsToA v carry s = WritesReg .a (add8 s.cpu.a v carry).1 (add8 s.cpu.a v carry).2 s := by
  rw [add8_val]
  rfl

/-- Settles O42: ADD and ADC write what `add8` gives. -/
theorem addAndAddWithCarry : Obligations.AddAndAddWithCarry := by
  intro r n s
  simp only [addsToA_eq]
  exact ⟨runs_alu .add (.loc (.reg r)) s, runs_alu .add (.loc .atHL) s, runs_alu .add (.imm n) s,
    runs_alu .adc (.loc (.reg r)) s, runs_alu .adc (.loc .atHL) s, runs_alu .adc (.imm n) s⟩

/-! ### O43: differences -/

/-- Rule R251 is what `sub8` computes. -/
theorem subtractsFromA_eq (v : Byte) (borrow : Bool) (s : State) :
    SubtractsFromA v borrow s = WritesReg .a (sub8 s.cpu.a v borrow).1 (sub8 s.cpu.a v borrow).2 s := by
  rw [sub8_val]
  rfl

/-- R251's flags without a borrow are those of `sub8`. -/
theorem differenceFlags_eq (a b : Byte) : differenceFlags a.toNat b.toNat 0 = (sub8 a b false).2 := by
  rw [sub8_val]
  rfl

/-- Settles O43: SUB and SBC write what `sub8` gives, CP its flags. -/
theorem subtractAndCompare : Obligations.SubtractAndCompare := by
  intro r n s
  simp only [subtractsFromA_eq, differenceFlags_eq]
  exact ⟨runs_alu .sub (.loc (.reg r)) s, runs_alu .sub (.loc .atHL) s, runs_alu .sub (.imm n) s,
    runs_alu .sbc (.loc (.reg r)) s, runs_alu .sbc (.loc .atHL) s, runs_alu .sbc (.imm n) s,
    runs_cp (.loc (.reg r)) s, runs_cp (.loc .atHL) s, runs_cp (.imm n) s⟩

/-! ### O44: AND, XOR, OR -/

/-- Settles O44: the result functions are R252's own operations. -/
theorem logicOperations : Obligations.LogicOperations := fun r n s =>
  ⟨runs_alu .and (.loc (.reg r)) s, runs_alu .and (.loc .atHL) s, runs_alu .and (.imm n) s,
    runs_alu .xor (.loc (.reg r)) s, runs_alu .xor (.loc .atHL) s, runs_alu .xor (.imm n) s,
    runs_alu .or (.loc (.reg r)) s, runs_alu .or (.loc .atHL) s, runs_alu .or (.imm n) s⟩

/-! ### O45: INC and DEC -/

/-- INC r writes its result function's value to the register, and its flags (R277). -/
theorem runs_incReg (r : Reg8) (s : State) :
    Runs (Form.inc8 (.reg r)).instr (Form.inc8 (.reg r)).bytes 4 s
      (WritesReg r (inc8 (s.reg r) s.flags).1 (inc8 (s.reg r) s.flags).2 s) :=
  .of_form rfl rfl (State.setReg_cycles s r _) (.setFlags r _ _ s _)

/-- INC (HL) writes it to the byte at HL by one Bus write (R278). -/
theorem runs_incAtHl (s : State) :
    Runs .inc_atHL [0x34] 12 s
      (RewritesAtHl (inc8 (memRead s.hl s) s.flags).1 (inc8 (memRead s.hl s) s.flags).2 s) :=
  .of_retire rfl rfl (memWrite_cycles s.hl _ s) (.of_memWrite _ _ s _)

/-- DEC r, as INC r (R279). -/
theorem runs_decReg (r : Reg8) (s : State) :
    Runs (Form.dec8 (.reg r)).instr (Form.dec8 (.reg r)).bytes 4 s
      (WritesReg r (dec8 (s.reg r) s.flags).1 (dec8 (s.reg r) s.flags).2 s) :=
  .of_form rfl rfl (State.setReg_cycles s r _) (.setFlags r _ _ s _)

/-- DEC (HL), as INC (HL) (R280). -/
theorem runs_decAtHl (s : State) :
    Runs .dec_atHL [0x35] 12 s
      (RewritesAtHl (dec8 (memRead s.hl s) s.flags).1 (dec8 (memRead s.hl s) s.flags).2 s) :=
  .of_retire rfl rfl (memWrite_cycles s.hl _ s) (.of_memWrite _ _ s _)

/-- Settles O45: each form writes what `inc8` or `dec8` gives. -/
theorem incrementAndDecrement : Obligations.IncrementAndDecrement := by
  intro r s
  have hincReg := runs_incReg r s
  have hincAtHl := runs_incAtHl s
  have hdecReg := runs_decReg r s
  have hdecAtHl := runs_decAtHl s
  rw [inc8_val] at hincReg hincAtHl
  rw [dec8_val] at hdecReg hdecAtHl
  exact ⟨hincReg, hincAtHl, hdecReg, hdecAtHl⟩

/-! ### O46: DAA, CPL, SCF, CCF -/

/-- DAA writes the adjusted A and its flags. -/
theorem runs_daa (s : State) :
    Runs .daa [0x27] 4 s (WritesReg .a (daa s.cpu.a s.flags).1 (daa s.cpu.a s.flags).2 s) :=
  .of_retire rfl rfl rfl (.setFlags .a _ _ s _)

/-- CPL writes the complement of A, and sets N and H. -/
theorem runs_cpl (s : State) :
    Runs .cpl [0x2F] 4 s (WritesReg .a (s.cpu.a ^^^ 0xFF) { s.flags with n := true, h := true } s) :=
  .of_retire rfl rfl rfl (.setFlags .a _ _ s _)

/-- Settles O46: DAA and CPL write A, then the flags; SCF and CCF the flags alone. -/
theorem adjustAndComplement : Obligations.AdjustAndComplement := by
  intro s
  have hdaa := runs_daa s
  have hcpl := runs_cpl s
  rw [daa_val] at hdaa
  rw [cpl_val] at hcpl
  exact ⟨hdaa, hcpl, .of_retire rfl rfl rfl (.setFlags _ s _), .of_retire rfl rfl rfl (.setFlags _ s _)⟩

/-! ### O47: decimal sums and differences -/

/-- What DAA makes of an ALU result and its flags. -/
def daaAfter (r : Byte × Flags) : Byte × Flags := daa r.1 r.2

theorem exists_digits {x : Nat} (h : x < 100) : ∃ p < 10, ∃ q < 10, x = 10 * p + q :=
  ⟨x / 10, by omega, x % 10, by omega, by omega⟩

section
variable {p q : Nat} (hp : p < 10) (hq : q < 10)
include hp hq

theorem toNat_bcd : (bcd (10 * p + q)).toNat = 16 * p + q := by
  rw [bcd, BitVec.toNat_ofNat]
  omega

theorem ofInt_eq_bcd {z : Int} (h : z % 256 = 16 * p + q) : BitVec.ofInt 8 z = bcd (10 * p + q) := by
  rw [← BitVec.toNat_inj, BitVec.toNat_ofInt, toNat_bcd hp hq]
  omega

end

/-- What DAA does after an ADD of packed numbers: C or the test against 0x99 is the decimal carry, H or the test against 9
the carry out of the low digit. -/
theorem daaValue_sumFlags {p q m n : Nat} (hp : p < 10) (hq : q < 10) (hm : m < 10) (hn : n < 10) :
    daaValue ((16 * p + q + (16 * m + n)) % 256) (sumFlags (16 * p + q) (16 * m + n) 0) =
      ((((16 * p + q + (16 * m + n)) % 256 : Nat) : Int) + (if 100 ≤ 10 * p + q + (10 * m + n) then 0x60 else 0) +
        (if 10 ≤ q + n then 0x06 else 0), decide (100 ≤ 10 * p + q + (10 * m + n))) := by
  have hcarry : 16 * p + q + (16 * m + n) > 0xFF ∨ (16 * p + q + (16 * m + n)) % 256 > 0x99 ↔
      100 ≤ 10 * p + q + (10 * m + n) := by
    have hhigh : p + m < 9 ∨ p + m = 9 ∨ 9 < p + m := Nat.lt_trichotomy _ _
    have hv (v : Nat) : v > 0xFF ∨ v % 256 > 0x99 ↔ v > 0x99 := by omega
    omega
  have hhalf : (16 * p + q) % 16 + (16 * m + n) % 16 > 0x0F ∨ (16 * p + q + (16 * m + n)) % 256 % 16 > 9 ↔
      10 ≤ q + n := by
    have hq : (16 * p + q) % 16 = q := by omega
    have hn : (16 * m + n) % 16 = n := by omega
    omega
  simp only [daaValue, sumFlags, add_zero, Bool.false_eq_true, if_false, decide_eq_true_eq, ← Bool.decide_or,
    hcarry, hhalf]

/-- DAA after ADD: the sum of the digits, less 10 where it carries. -/
theorem daa_add8_bcd {x y : Nat} (hx : x < 100) (hy : y < 100) :
    (daaAfter (add8 (bcd x) (bcd y) false)).1 = bcd ((x + y) % 100) ∧
      (daaAfter (add8 (bcd x) (bcd y) false)).2.c = decide (100 ≤ x + y) := by
  obtain ⟨p, hp, q, hq, rfl⟩ := exists_digits hx
  obtain ⟨m, hm, n, hn, rfl⟩ := exists_digits hy
  obtain ⟨i, hi, j, hj, hij⟩ := exists_digits (Nat.mod_lt (10 * p + q + (10 * m + n)) (by decide : 0 < 100))
  have hlow : q + n = j ∨ q + n = j + 10 := by omega
  have hsum : 10 * p + q + (10 * m + n) = 10 * i + j ∨ 10 * p + q + (10 * m + n) = 10 * i + j + 100 := by omega
  rw [daaAfter, add8_val, daa_val, toNat_bcd hp hq, toNat_bcd hm hn, hij, BitVec.toNat_ofNat, Bool.toNat_false, add_zero,
    show 2 ^ 8 = 256 from rfl, daaValue_sumFlags hp hq hm hn]
  refine ⟨ofInt_eq_bcd hi hj ?_, rfl⟩
  dsimp only
  split_ifs <;> omega

/-- What DAA does after a SUB of packed numbers: C is the decimal borrow, H the borrow of the low digit. -/
theorem daaValue_differenceFlags {p q m n : Nat} (hq : q < 10) (hn : n < 10) (v : Nat) :
    daaValue v (differenceFlags (16 * p + q) (16 * m + n) 0) =
      ((v : Int) - (if 10 * p + q < 10 * m + n then 0x60 else 0) - (if q < n then 0x06 else 0),
        decide (10 * p + q < 10 * m + n)) := by
  have hborrow : 16 * p + q < 16 * m + n ↔ 10 * p + q < 10 * m + n := by omega
  have hhalf : (16 * p + q) % 16 < (16 * m + n) % 16 ↔ q < n := by omega
  simp only [daaValue, differenceFlags, add_zero, if_true, decide_eq_true_eq, hborrow, hhalf]

/-- DAA after SUB: the difference of the digits, plus 10 where it borrows. -/
theorem daa_sub8_bcd {x y : Nat} (hx : x < 100) (hy : y < 100) :
    (daaAfter (sub8 (bcd x) (bcd y) false)).1 = bcd ((100 + x - y) % 100) ∧
      (daaAfter (sub8 (bcd x) (bcd y) false)).2.c = decide (x < y) := by
  obtain ⟨p, hp, q, hq, rfl⟩ := exists_digits hx
  obtain ⟨m, hm, n, hn, rfl⟩ := exists_digits hy
  obtain ⟨i, hi, j, hj, hij⟩ := exists_digits (Nat.mod_lt (100 + (10 * p + q) - (10 * m + n)) (by decide : 0 < 100))
  rw [daaAfter, sub8_val, daa_val, toNat_bcd hp hq, toNat_bcd hm hn, hij, Bool.toNat_false,
    daaValue_differenceFlags hq hn, BitVec.toNat_ofInt]
  refine ⟨ofInt_eq_bcd hi hj ?_, rfl⟩
  dsimp only
  split_ifs <;> omega

/-- DAA run after an ALU instruction other than CP adjusts that instruction's result by its flags. -/
theorem exec_alu_daa (op : AluOp) (src : Src8) (s : State) (hop : op ≠ .cp := by decide) :
    ∃ t u, exec (Form.alu op src).instr s = .next t ∧ exec .daa t = .next u ∧
      (u.cpu.a, u.flags) = daaAfter (aluResult op s.cpu.a (s.readSrc src) s.flags.c) := by
  obtain ⟨-, t, ht, -, halu⟩ := runs_alu op src s hop
  obtain ⟨-, u, hu, -, hdaa⟩ := runs_daa t
  have hta : t.cpu.a = (aluResult op s.cpu.a (s.readSrc src) s.flags.c).1 := halu.value
  rw [hta, halu.flags.flags] at hdaa
  exact ⟨t, u, ht, hu, Prod.ext hdaa.value hdaa.flags.flags⟩

/-- Settles O47: DAA after `add8` and after `sub8` of packed numbers. -/
theorem daaGivesDecimalSums : Obligations.DaaGivesDecimalSums := by
  intro s x y hx hy ha hb
  constructor
  · obtain ⟨t, u, ht, hu, hdaa⟩ := exec_alu_daa .add (.loc (.reg .b)) s
    obtain ⟨hvalue, hcarry⟩ := daa_add8_bcd hx hy
    rw [← ha, ← hb] at hvalue hcarry
    exact ⟨t, u, ht, hu, (congrArg Prod.fst hdaa).trans hvalue, (congrArg (·.2.c) hdaa).trans hcarry⟩
  · obtain ⟨t, u, ht, hu, hdaa⟩ := exec_alu_daa .sub (.loc (.reg .b)) s
    obtain ⟨hvalue, hborrow⟩ := daa_sub8_bcd hx hy
    rw [← ha, ← hb] at hvalue hborrow
    exact ⟨t, u, ht, hu, (congrArg Prod.fst hdaa).trans hvalue, (congrArg (·.2.c) hdaa).trans hborrow⟩

/-! ### O48: the round trip -/

/-- Settles O48, in the integers modulo 256. -/
theorem aluRoundTrip : Obligations.AluRoundTrip := by
  intro a b c
  rw [add8_val, sub8_val, ← BitVec.toNat_inj]
  simp only [BitVec.toNat_ofInt, BitVec.toNat_ofNat]
  omega

end Sys2Proof.Machine
end

