-- ==== Sys2Proof/Proofs/Alu16.lean ====
section
/-! PROOFS. The statements about 16-bit arithmetic (43_alu16.md): each form writes HL or SP, then the flags. -/

namespace Sys2Proof.Machine

/-! ### O49: ADD HL,rr; ADD SP,e; LD HL,SP+e -/

/-- An instruction whose form's operation sets HL, then the flags (R291, R295), writes no other register and nothing
outside. -/
theorem Runs.writesHl {i : Instr} {f : Form} {bytes : List Byte} {n : Nat} {s : State} {w : Word} {g : Flags}
    (hf : i.form = f) (he : f.bytes = bytes) (hx : formMeaning f s = retire n ((s.setHl w).setFlags g)) :
    Runs i bytes n s
      (fun t => t.hl = w ∧ HasFlags g t ∧ KeepsBut [.h, .l] s t ∧ KeepsSpPc s t ∧ KeepsOutside s t) := by
  subst hf
  refine .of_retire he hx rfl ⟨State.hl_setHl s w, .setFlags _ g _, fun r hr => ?_, ⟨rfl, rfl⟩, ?_⟩
  · exact (State.reg_setFlags (s.setHl w) r g).trans (State.keepsBut_setHl s w r hr)
  · apply KeepsOutside.of_fields <;> rfl

/-- ADD SP,e sets SP, then the flags (R294), and writes no 8-bit register and nothing outside. -/
theorem runs_addSpE (e : Byte) (s : State) :
    Runs (.add_SP_e e) [0xE8, e] 16 s
      (fun t => t.cpu.sp = (addSpE s.cpu.sp e).1 ∧ HasFlags (addSpE s.cpu.sp e).2 t ∧ KeepsBut [] s t ∧
        t.cpu.pc = s.cpu.pc ∧ KeepsOutside s t) := by
  refine .of_retire rfl rfl rfl ⟨rfl, .setFlags _ _ _, fun r _ => ?_, rfl, ?_⟩
  · exact (State.reg_setFlags _ r _).trans (State.reg_setSp s r _)
  · apply KeepsOutside.of_fields <;> rfl

/-- Settles O49: ADD HL,rr and LD HL,SP+e write HL and the flags, ADD SP,e SP and the flags; SP plus the signed displacement
is the sum with the sign-extended byte (R290). -/
theorem wordArithmetic : Obligations.WordArithmetic := by
  intro p e s
  rw [← Word.add_signExtend]
  exact ⟨.writesHl (Instr.form_instr _) rfl rfl, runs_addSpE e s, .writesHl rfl rfl rfl⟩

end Sys2Proof.Machine
end

