-- ==== Sys2Proof/Proofs/RotateShiftBit.lean ====
section
/-! PROOFS. The statements about rotates, shifts and bit operations (44_rotate_shift_bit.md): what the shared operation of each
form writes, said through its result function; the values of those functions are in Laws/Values. -/

namespace Sys2Proof.Machine

/-! ### O50: RLCA, RRCA, RLA, RRA -/

/-- The result of a rotate, a shift or SWAP in unbounded integers. -/
theorem shiftResult_fst (op : ShiftOp) (v : Byte) (c : Bool) :
    (shiftResult op v c).1 = BitVec.ofNat 8 (shiftValue op v.toNat c.toNat).1 := by
  rw [shiftResult_val]

/-- An accumulator rotate writes the rotated value to A, and to C the bit shifted out (R300 to R303). -/
theorem Runs.accRotate {i : Instr} {bytes : List Byte} {op : ShiftOp} {s : State} (he : i.form.bytes = bytes)
    (hx : formMeaning i.form s = accRotate op s) :
    Runs i bytes 4 s
      (WritesReg .a (shiftResult op s.cpu.a s.flags.c).1 (accRotateFlags (shiftResult op s.cpu.a s.flags.c).2) s) :=
  .of_retire he hx rfl (.setFlags .a _ _ s _)

/-- Settles O50: the bit shifted out is old bit 7 of a rotate left and old bit 0 of a rotate right. -/
theorem accumulatorRotates : Obligations.AccumulatorRotates := by
  rintro s _ rfl
  simp only [← shiftResult_fst]
  exact ⟨.accRotate rfl rfl, .accRotate rfl rfl, .accRotate rfl rfl, .accRotate rfl rfl⟩

/-! ### O51, O52: the rotates, the shifts and SWAP of the CB page -/

/-- On a register: its result function's value is written to the register, then the flags (R304). -/
theorem runs_shiftReg (op : ShiftOp) (r : Reg8) (s : State) :
    Runs (Form.shift op (.reg r)).instr (Form.shift op (.reg r)).bytes 8 s
      (WritesReg r (shiftResult op (s.reg r) s.flags.c).1
        (shiftFlags (shiftResult op (s.reg r) s.flags.c).1 (shiftResult op (s.reg r) s.flags.c).2) s) :=
  .of_form rfl rfl (State.setReg_cycles s r _) (.setFlags r _ _ s _)

/-- On the byte at HL: the value is written by one Bus write, then the flags (R304). -/
theorem runs_shiftAtHl (op : ShiftOp) (s : State) :
    Runs (Form.shift op .atHL).instr (Form.shift op .atHL).bytes 16 s
      (RewritesAtHl (shiftResult op (memRead s.hl s) s.flags.c).1
        (shiftFlags (shiftResult op (memRead s.hl s) s.flags.c).1 (shiftResult op (memRead s.hl s) s.flags.c).2) s) :=
  .of_form rfl rfl (memWrite_cycles s.hl _ s) (.of_memWrite _ _ s _)

/-- Settles O51: the result and the flags in unbounded integers are those of `shiftResult`. -/
theorem registerShifts : Obligations.RegisterShifts := by
  rintro op r s _ rfl
  rw [← shiftResult_fst, ← shiftFlags_val]
  exact runs_shiftReg op r s

/-- Settles O52, as O51 on the byte at HL. -/
theorem memoryShifts : Obligations.MemoryShifts := by
  rintro op s _ rfl
  rw [← shiftResult_fst, ← shiftFlags_val]
  exact runs_shiftAtHl op s

/-! ### O53: BIT -/

/-- BIT writes only the flags of its test (R321, R322). -/
theorem runs_bit (b : Fin 8) (l : Loc) (s : State) :
    Runs (Form.bit b l).instr (Form.bit b l).bytes (cbBitCycles l) s
      (WritesFlags ⟨decide (bitOf (s.readLoc l) b = 0), false, true, s.cpu.f.getLsbD 4⟩ s) := by
  rw [← bitTestFlags_val]
  exact .of_form rfl rfl rfl (.setFlags _ s _)

/-- Settles O53: a register and the byte at HL are the two locations BIT reads. -/
theorem bitTests : Obligations.BitTests := fun b r s => ⟨runs_bit b (.reg r) s, runs_bit b .atHL s⟩

/-! ### O54: RES and SET -/

/-- Settles O54: each form is one write of the location, a register or the byte at HL; the masks clear and set bit `b` alone
(`clearBit_val`, `setBit_val`). -/
theorem bitResetsAndSets : Obligations.BitResetsAndSets := by
  intro b r s
  simp only [← clearBit_val, ← setBit_val]
  exact ⟨.loadsReg (Instr.form_instr _) rfl rfl, .storesByte (Instr.form_instr _) rfl rfl,
    .loadsReg (Instr.form_instr _) rfl rfl, .storesByte (Instr.form_instr _) rfl rfl⟩

end Sys2Proof.Machine
end

