-- ==== Sys2Proof/Proofs/Control.lean ====
section
/-! PROOFS. The statements about control transfer (45_control.md): what a jump, a call and a return make of the state, and
the choice a conditional form makes between that and its not-taken count. -/

namespace Sys2Proof.Machine

/-! ### Conditional forms (R330) -/

section
variable {f : Form} {bytes : List Byte} {cc : Cond} {n : Nat} {s : State} (he : f.bytes = bytes)
include he

/-- A form that chooses by a condition runs its taken branch where the condition holds. -/
theorem Runs.taken {t : State} {r : Result} {P : State → Prop} (h : condTrue cc s)
    (hx : formMeaning f s = if condHolds cc s.flags then retire n t else r) (hc : t.cycles = s.cycles)
    (hp : P { t with cycles := t.cycles + n }) : Runs f.instr bytes n s P :=
  .of_form he (hx.trans (if_pos ((condHolds_iff cc s).2 h))) hc hp

/-- Such a form, where the condition fails, only adds its not-taken count. -/
theorem Runs.notTaken {r : Result} (h : ¬condTrue cc s)
    (hx : formMeaning f s = if condHolds cc s.flags then r else retire n s) :
    Runs f.instr bytes n s (JumpsTo s.cpu.pc s) :=
  .of_form he (hx.trans (if_neg (mt (condHolds_iff cc s).1 h))) rfl (.refl s _)

end

/-! ### O55: jumps -/

/-- The target of a relative jump is PC plus the signed displacement (R334). -/
theorem relTarget_val (pc : Word) (e : Byte) : relTarget pc e = BitVec.ofInt 16 (pc.toNat + e.toInt) :=
  Word.add_signExtend pc e

/-- An instruction whose form's operation sets PC jumps. -/
theorem Runs.jumps {i : Instr} {bytes : List Byte} {n : Nat} {s : State} {target : Word} (he : i.form.bytes = bytes)
    (hx : formMeaning i.form s = retire n (s.setPc target)) : Runs i bytes n s (JumpsTo target s) :=
  .of_retire he hx rfl (.setPc target s _)

/-- Settles O55: each jump sets PC and does nothing else, a conditional one where its condition holds. -/
theorem jumps : Obligations.Jumps := by
  intro cc nn e s
  rw [← relTarget_val]
  exact ⟨.jumps rfl rfl, fun h => .taken rfl h rfl rfl (.setPc nn s _), fun h => .notTaken rfl h rfl, .jumps rfl rfl,
    .jumps rfl rfl, fun h => .taken rfl h rfl rfl (.setPc (relTarget s.cpu.pc e) s _), fun h => .notTaken rfl h rfl⟩

/-! ### O56: calls -/

@[simp] theorem callTo_cycles (target : Word) (s : State) : (callTo target s).cycles = s.cycles :=
  push16_cycles s.cpu.pc s

/-- A call pushes PC and jumps, whatever the count becomes. -/
theorem pushes_callTo (target : Word) (s : State) (n : Nat) :
    Pushes s.cpu.pc s { callTo target s with cycles := n } ∧
      ({ callTo target s with cycles := n } : State).cpu.pc = target :=
  ⟨.push16 s.cpu.pc target s n, rfl⟩

/-- Settles O56: CALL and RST are `callTo` of their target, CALL cc where its condition holds. -/
theorem calls : Obligations.Calls := fun _ k nn s =>
  ⟨.of_retire rfl rfl (callTo_cycles nn s) (pushes_callTo nn s _),
    fun h => .taken rfl h rfl (callTo_cycles nn s) (pushes_callTo nn s _), fun h => .notTaken rfl h rfl,
    .of_form rfl rfl (callTo_cycles (rstTarget k) s) (pushes_callTo (rstTarget k) s _)⟩

/-! ### O57: returns -/

/-- The return from an interrupt changes nothing outside but IME and its schedule (R341). -/
theorem keepsOutside_returnFromInterrupt (s : State) (n : Nat) :
    KeepsOutside { s with irq := { s.irq with ime := true, imeSched := false } }
      { returnFromInterrupt s with cycles := n } := by
  apply KeepsOutside.of_fields <;> rfl

/-- RETI pops PC as RET does (R341). -/
theorem runs_reti (s : State) :
    Runs .reti [0xD9] 16 s (fun t =>
      t.cpu.pc = stackTop s ∧ t.cpu.sp = s.cpu.sp + 2 ∧ KeepsBut [] s t ∧ t.cpu.f = s.cpu.f ∧
        KeepsOutside { s with irq := { s.irq with ime := true, imeSched := false } } t) :=
  have hret := ReturnsFrom.returnFromStack s (s.cycles + 16)
  .of_retire rfl rfl rfl ⟨hret.pc, hret.sp, hret.regs, hret.f, keepsOutside_returnFromInterrupt s _⟩

/-- Settles O57: RET pops PC, RET cc where its condition holds, and RETI then enables interrupts. -/
theorem returns : Obligations.Returns := fun _ s =>
  ⟨.of_retire rfl rfl rfl (.returnFromStack s _), fun h => .taken rfl h rfl rfl (.returnFromStack s _),
    fun h => .notTaken rfl h rfl, runs_reti s⟩

end Sys2Proof.Machine
end

