-- ==== Sys2Proof/Proofs/System.lean ====
section
/-! PROOFS. The statements about the system instructions, the CB prefix and the illegal opcodes (46_system.md): the form that
a CB byte's fields select is the grid's cell, and an illegal opcode's fetch is one byte whose execution faults. -/

namespace Sys2Proof.Machine

/-! ### O60: PREFIX CB -/

/-- The form that the fields of a CB opcode select (R121). -/
def cbForm (cb : Byte) : Form :=
  let l := locOfCode (cb.extractLsb' 0 3)
  let y := cb.extractLsb' 3 3
  match (cb.extractLsb' 6 2).toNat with
  | 0 => .shift (shiftOfCode y) l
  | 1 => .bit y.toFin l
  | 2 => .res y.toFin l
  | _ => .set y.toFin l

/-- PREFIX CB is the operation of the form that its second byte selects (R355). -/
theorem cbPageOp_eq (cb : Byte) (s : State) : cbPageOp cb s = formMeaning (cbForm cb) s := by
  unfold cbPageOp cbForm
  generalize (cb.extractLsb' 6 2).toNat = group
  match group with
  | 0 | 1 | 2 | _ + 3 => rfl

/-- R124's grid is R121's fields, written out. -/
theorem cbGrid_eq : cbGrid = byteGrid fun cb => (cbForm cb).instr := rfl

theorem cbInstr_eq (cb : Byte) : cbInstr cb = (cbForm cb).instr := by
  rw [cbInstr, cbGrid_eq, gridAt_byteGrid]

theorem exec_cbInstr (cb : Byte) (s : State) : exec (cbInstr cb) s = exec (.prefix_CB cb) s :=
  calc exec (cbInstr cb) s
    _ = formMeaning (cbForm cb) s := by rw [cbInstr_eq, exec_form]
    _ = cbPageOp cb s := (cbPageOp_eq cb s).symm
    _ = exec (.prefix_CB cb) s := (exec_eq (.prefix_CB cb) s).symm

theorem exec_prefixCb_completes (cb : Byte) (s : State) : ∃ t, exec (.prefix_CB cb) s = .next t := by
  obtain ⟨t, -, h⟩ := formMeaning_effect (.prefixCb cb) s rfl
  exact ⟨_, (exec_eq (.prefix_CB cb) s).trans h⟩

/-- Settles O60: the decoder reads the grid's cell, which is the form that PREFIX CB executes; each group's fields select that
cell (`cbInstr_shift` and its companions). -/
theorem prefixCbRunsSelected : Obligations.PrefixCbRunsSelected := by
  intro cb rest s
  obtain ⟨t, ht⟩ := exec_prefixCb_completes cb s
  refine ⟨rfl, cbInstr cb, t, decode_cbPage rest rfl, ht, (exec_cbInstr cb s).trans ht, ?_, ?_, ?_, ?_⟩
  · rintro op l rfl
    exact cbInstr_shift op l
  · rintro b l rfl
    exact cbInstr_bit b l
  · rintro b l rfl
    exact cbInstr_res b l
  · rintro b l rfl
    exact cbInstr_set b l

/-! ### O8: the illegal opcodes -/

theorem instrLength_illegal (k : IllegalOp) : instrLength k.code = 1 := by cases k <;> rfl

theorem decodeOne_illegal (k : IllegalOp) (p q : Byte) : decodeOne k.code p q = (Form.illegal k).instr := by
  cases k <;> rfl

theorem exec_illegal (k : IllegalOp) (s : State) : exec (Form.illegal k).instr s = illegalOp k.code s :=
  exec_form (.illegal k) s

/-- A fetch that reads an illegal opcode takes that byte alone. -/
theorem fetchBytes_illegal {k : IllegalOp} {s : State} (h : memRead s.cpu.pc s = k.code) : fetchBytes s = [k.code] := by
  simp [fetchBytes, h, instrLength_illegal]

/-- A CPU that runs and finds an illegal opcode at PC executes it with PC past that byte. -/
theorem cpuExecute_illegal {k : IllegalOp} {s : State} (hi : s.idle = false) (h : memRead s.cpu.pc s = k.code) :
    cpuExecute s = illegalOp k.code (s.setPc (s.cpu.pc + 1)) := by
  have hinstr : fetchedInstr s = (Form.illegal k).instr := by
    rw [fetchedInstr, fetchBytes_illegal h]
    exact decodeOne_illegal k _ _
  have hpc : fetchedPc s = s.cpu.pc + 1 := by
    rw [fetchedPc, h, instrLength_illegal]
    rfl
  rw [cpuExecute, hi, if_neg Bool.false_ne_true, fetchExecute, hinstr, hpc, exec_illegal]

/-- A fault of the CPU part ends the step: neither the EI-delay update nor a tick follows (R470). -/
theorem step_of_execute_fault {s : State} {r : Fault} (hf : s.fault = none) (h : cpuExecute (cpuPrelude s) = .fault r) :
    step s = .fault r := by
  simp only [step, hf, cpuStep, h, mapNext]

/-- Once the fetch has moved PC past the opcode, PC - 1 is the address it was fetched from. -/
theorem illegalOp_after_fetch (op : Byte) (s : State) :
    illegalOp op (s.setPc (s.cpu.pc + 1)) =
      raiseFault { kind := .illegalOpcode, opcode := op, address := s.cpu.pc } (s.setPc (s.cpu.pc + 1)) := by
  have hpc : (s.setPc (s.cpu.pc + 1)).cpu.pc - 1 = s.cpu.pc := BitVec.add_sub_cancel s.cpu.pc 1
  rw [illegalOp, hpc]

/-- Settles O8: the form's operation raises the fault, in a step after the fetch of the one byte; a recorded fault ends every
step before it begins. -/
theorem illegalOpcodeFaults : Obligations.IllegalOpcodeFaults := by
  refine ⟨fun k s => ⟨?_, exec_illegal k s⟩, ?_, fun s k hf hi hop => ?_, fun s r hf => ?_⟩
  · rw [encode, Instr.form_instr]
    rfl
  · intro k
    cases k <;> decide
  · apply step_of_execute_fault hf
    rw [cpuExecute_illegal hi hop, illegalOp_after_fetch]
    rfl
  · rw [step, hf]

/-! ### O58, O59: NOP, DI, EI, HALT and STOP -/

/-- Settles O58: each is its form's operation, a write of IME and its schedule at most. -/
theorem nopDiEi : Obligations.NopDiEi := fun _ =>
  ⟨.of_retire rfl rfl rfl rfl, .of_retire rfl rfl rfl rfl, .of_retire rfl rfl rfl rfl⟩

/-- Settles O59: each is its form's operation, a write of the execution state and, for STOP, of DIV's accumulator and freeze. -/
theorem haltAndStop : Obligations.HaltAndStop := fun _ _ =>
  ⟨.of_retire rfl rfl rfl rfl, .of_retire rfl rfl rfl rfl⟩

end Sys2Proof.Machine
end

