-- ==== Sys2Proof/Proofs/Step.lean ====
section
/-! PROOFS. The statements about the step, interrupts and the joypad (60_exceptions.md): what an instruction spends, which wake
check applies and what the query then does, and the fetch of the bytes at PC. -/

namespace Sys2Proof.Machine

/-! ### O9: every instruction but the illegal opcodes completes -/

/-- The cycle counts of the rules, the system instructions' among them. -/
theorem formCycles_mem_of_legal {f : Form} (s : State) (h : ∀ k, f ≠ .illegal k) : formCycles f s ∈ cycleCounts := by
  by_cases hsys : isSystem f = false
  · exact formCycles_mem f s hsys
  · cases f
    case illegal k => exact absurd rfl (h k)
    case halt | stop | di | ei | reti => simp [formCycles, cycleCounts]
    all_goals exact absurd rfl hsys

/-- Every form but the illegal opcodes retires its cycle count, and has spent nothing before that. -/
theorem formMeaning_retires {f : Form} (s : State) (h : ∀ k, f ≠ .illegal k) :
    ∃ t, formMeaning f s = retire (formCycles f s) t ∧ t.cycles = s.cycles := by
  by_cases hsys : isSystem f = false
  · obtain ⟨t, ht, e⟩ := formMeaning_effect f s hsys
    exact ⟨t, e, ht.kept.cycles⟩
  · cases f
    case illegal k => exact absurd rfl (h k)
    case halt | stop | di | ei | reti => exact ⟨_, rfl, rfl⟩
    all_goals exact absurd rfl hsys

section
variable {i : Instr} (hlegal : ∀ k, i ≠ (Form.illegal k).instr)
include hlegal

theorem form_ne_illegal (k : IllegalOp) : i.form ≠ .illegal k := fun e => hlegal k (by rw [← e, Form.instr_form])

/-- An instruction that is no illegal opcode completes, and spends its form's cycle count. -/
theorem exec_retires (s : State) : ∃ t, exec i s = .next t ∧ t.cycles = s.cycles + formCycles i.form s := by
  obtain ⟨t, e, hc⟩ := formMeaning_retires s (form_ne_illegal hlegal)
  exact ⟨_, (exec_eq i s).trans e, congrArg (· + _) hc⟩

end

/-- Settles O9: every form but an illegal opcode's retires a count. -/
theorem everyInstructionCompletes : Obligations.EveryInstructionCompletes := by
  intro i s h
  obtain ⟨t, ht, -⟩ := exec_retires h s
  exact ⟨t, ht⟩

/-! ### O7: the cycle count of a step -/

/-- An instruction that answers a next state is no illegal opcode: those fault (R356). -/
theorem ne_illegal_of_exec {i : Instr} {s t : State} (h : exec i s = .next t) (k : IllegalOp) :
    i ≠ (Form.illegal k).instr := by
  rintro rfl
  rw [exec_illegal] at h
  cases h

/-- What an instruction adds to the cycle count is its form's count in the state without one. -/
theorem exec_cycles {i : Instr} {s t : State} (h : exec i s = .next t) :
    ∃ u, exec i { s with cycles := 0 } = .next u ∧ u.cycles ∈ cycleCounts ∧ t.cycles = s.cycles + u.cycles := by
  have hlegal := ne_illegal_of_exec h
  obtain ⟨t', ht', hc⟩ := exec_retires hlegal s
  obtain ⟨u, hu, hn⟩ := exec_retires hlegal { s with cycles := 0 }
  rw [formCycles_with_cycles, Nat.zero_add] at hn
  cases h.symm.trans ht'
  exact ⟨u, hu, hn ▸ formCycles_mem_of_legal s (form_ne_illegal hlegal), hn ▸ hc⟩

theorem cpuExecute_of_running {s : State} (h : s.idle = false) : cpuExecute s = fetchExecute s := by
  rw [cpuExecute, h, if_neg Bool.false_ne_true]

/-- Settles O7: no tick writes the count, an idle CPU adds 4 to the 0 of a prelude without dispatch, and a running one adds its
instruction's count to what the prelude spent. -/
theorem stepCycleCounts : Obligations.StepCycleCounts := by
  intro s t h
  obtain ⟨-, u, hu, rfl⟩ := step_eq_next h
  simp only [ppuTick_cycles, timerTick_cycles, updateState_cycles]
  cases hi : (cpuPrelude s).idle with
  | true =>
    rw [cpuExecute_of_idle hi, cpuPrelude_eq_of_idle (idle_of_cpuPrelude_idle hi)] at hu
    cases hu
    exact .inl ⟨rfl, rfl⟩
  | false =>
    rw [cpuExecute_of_running hi] at hu
    obtain ⟨v, hv, hmem, hc⟩ := exec_cycles hu
    refine .inr ⟨rfl, v.cycles, hmem, ⟨v, hv, rfl⟩, ?_⟩
    rw [hc, State.setPc_cycles, cpuPrelude_cycles]
    split <;> omega

/-! ### O10: the wake checks -/

/-- The prelude is the query on the state after the wake checks, with the count at 0. -/
theorem cpuPrelude_eq (s : State) : cpuPrelude s = serviceInterrupts { wakeChecks s with cycles := 0 } := by
  rw [cpuPrelude, wakeChecks_with_cycles]

theorem serviceInterrupts_of_stopped {s : State} (h : s.cpu.stopped = true) : serviceInterrupts s = s := if_pos h

theorem serviceInterrupts_of_ready {s : State} {k : IrqSource} (h : s.cpu.stopped = false) (hk : readyInterrupt s = some k) :
    serviceInterrupts s = dispatch k s := by
  rw [serviceInterrupts, h, if_neg Bool.false_ne_true, hk]

theorem serviceInterrupts_of_not_ready {s : State} (h : readyInterrupt s = none) : serviceInterrupts s = s := by
  unfold serviceInterrupts
  split
  · rfl
  · rw [h]

theorem readyInterrupt_of_ime {s : State} (h : s.irq.ime = true) : readyInterrupt s = leastSource s.pending := if_pos h

section
variable {s : State}

/-- R415: a halted CPU wakes on a pending request. -/
theorem wakeHalt_of_pending (hh : s.cpu.halted = true) (hp : s.pending ≠ 0) :
    wakeHalt s = { s with cpu := { s.cpu with halted := false } } := if_pos ⟨hh, hp⟩

theorem wakeHalt_of_not_pending (hp : s.pending = 0) : wakeHalt s = s := if_neg fun h => h.2 hp

theorem wakeHalt_of_not_halted (hh : s.cpu.halted = false) : wakeHalt s = s := if_neg (by simp [hh])

/-- R416: a stopped CPU wakes on the Joypad request. -/
theorem wakeStop_of_joypad (hs : s.cpu.stopped = true) (hj : s.irq.iflag.getLsbD 4 = true) :
    wakeStop s = { s with cpu := { s.cpu with stopped := false }, timer := { s.timer with divFrozen := false } } :=
  if_pos ⟨hs, hj⟩

theorem wakeStop_of_not_joypad (hj : s.irq.iflag.getLsbD 4 = false) : wakeStop s = s :=
  if_neg fun h => Bool.false_ne_true (hj.symm.trans h.2)

theorem wakeStop_of_not_stopped (hs : s.cpu.stopped = false) : wakeStop s = s := if_neg (by simp [hs])

/-- A request is pending where the scan finds a source. -/
theorem exists_leastSource {p : BitVec 5} (h : p ≠ 0) : ∃ k, leastSource p = some k :=
  Option.isSome_iff_exists.1 ((leastSource_isSome p).trans (decide_eq_true h))

theorem wakeChecks_of_halted (hh : s.cpu.halted = true) (hs : s.cpu.stopped = false) (hp : s.pending ≠ 0) :
    wakeChecks s = { s with cpu := { s.cpu with halted := false } } := by
  rw [wakeChecks, wakeHalt_of_pending hh hp]
  exact wakeStop_of_not_stopped hs

/-- R415: the prelude of a halted CPU that wakes is the query. -/
theorem cpuPrelude_of_halted (hh : s.cpu.halted = true) (hs : s.cpu.stopped = false) (hp : s.pending ≠ 0) :
    cpuPrelude s = serviceInterrupts { s with cpu := { s.cpu with halted := false }, cycles := 0 } := by
  rw [cpuPrelude_eq, wakeChecks_of_halted hh hs hp]

/-- R415: with nothing pending the prelude only clears the count. -/
theorem cpuPrelude_of_not_pending (hs : s.cpu.stopped = false) (hp : s.pending = 0) :
    cpuPrelude s = { s with cycles := 0 } := by
  rw [cpuPrelude_eq, wakeChecks, wakeHalt_of_not_pending hp, wakeStop_of_not_stopped hs]
  exact serviceInterrupts_of_not_ready (readyInterrupt_of_pending hp)

/-- R416: the prelude of a stopped CPU that wakes is the query. -/
theorem cpuPrelude_of_stopped (hs : s.cpu.stopped = true) (hh : s.cpu.halted = false) (hj : s.irq.iflag.getLsbD 4 = true) :
    cpuPrelude s =
      serviceInterrupts
        { s with cpu := { s.cpu with stopped := false }, timer := { s.timer with divFrozen := false }, cycles := 0 } := by
  rw [cpuPrelude_eq, wakeChecks, wakeHalt_of_not_halted hh, wakeStop_of_joypad hs hj]

/-- R416: without the Joypad request a stopped CPU dispatches nothing. -/
theorem cpuPrelude_of_not_joypad (hs : s.cpu.stopped = true) (hh : s.cpu.halted = false)
    (hj : s.irq.iflag.getLsbD 4 = false) : cpuPrelude s = { s with cycles := 0 } := by
  rw [cpuPrelude_eq, wakeChecks, wakeHalt_of_not_halted hh, wakeStop_of_not_joypad hj]
  exact serviceInterrupts_of_stopped hs

end

/-- Settles O10: which wake check applies, then what the query does on the state it leaves. -/
theorem wakeChecksHaltAndStop : Obligations.WakeChecks := by
  refine ⟨fun s hh hs => ⟨fun hp hi => ?_, fun hp hi => ?_, cpuPrelude_of_not_pending hs⟩,
    fun s hs hh => ⟨cpuPrelude_of_stopped hs hh, cpuPrelude_of_not_joypad hs hh⟩⟩
  · rw [cpuPrelude_of_halted hh hs hp]
    exact serviceInterrupts_of_not_ready (readyInterrupt_of_not_ime hi)
  · obtain ⟨k, hk⟩ := exists_leastSource hp
    refine ⟨k, hk, ?_⟩
    rw [cpuPrelude_of_halted hh hs hp]
    exact serviceInterrupts_of_ready hs ((readyInterrupt_of_ime hi).trans hk)

/-! ### O11: the interrupt query -/

theorem IrqSource.bit_lt (k : IrqSource) : k.bit < 5 := by cases k <;> decide

/-- A bit of the pending requests is the bit in IE and in IF (R411). -/
theorem State.pending_getLsbD (s : State) (k : IrqSource) :
    s.pending.getLsbD k.bit = (s.irq.ie.getLsbD k.bit && s.irq.iflag.getLsbD k.bit) := by
  simp [State.pending, k.bit_lt]

/-- The source the scan answers has its bit set, and no source before it has: the scan tested those first. -/
theorem leastSource_least {p : BitVec 5} {k : IrqSource} (h : leastSource p = some k) :
    p.getLsbD k.bit = true ∧ ∀ j : IrqSource, j.bit < k.bit → p.getLsbD j.bit = false := by
  unfold leastSource at h
  split_ifs at h <;> cases h
  all_goals
    refine ⟨by assumption, fun j hj => ?_⟩
    cases j <;> simp_all [IrqSource.bit]

/-- Settles O11, by the scan of the pending requests. -/
theorem readyInterruptIsLowestBit : Obligations.ReadyInterruptIsLowestBit := by
  refine fun s => ⟨readyInterrupt_of_not_ime, readyInterrupt_of_pending, fun hi hp => ?_⟩
  obtain ⟨k, hk⟩ := exists_leastSource (p := s.pending) hp
  obtain ⟨hset, hlow⟩ := leastSource_least hk
  rw [s.pending_getLsbD, Bool.and_eq_true] at hset
  refine ⟨k, (readyInterrupt_of_ime hi).trans hk, hset.1, hset.2, fun j hj => ?_⟩
  rw [← Bool.and_eq_true, ← s.pending_getLsbD, hlow j hj]
  exact Bool.false_ne_true

/-! ### O12: dispatch -/

theorem IrqSource.vector_eq (k : IrqSource) : k.vector = BitVec.ofNat 16 (0x40 + 8 * k.bit) := by cases k <;> rfl

theorem IrqSource.mask_getLsbD (k : IrqSource) (j : Nat) : k.mask.getLsbD j = decide (j = k.bit) := by
  refine (BitVec.getLsbD_twoPow k.bit j).trans ?_
  simp [k.bit_lt, eq_comm]

/-- `mark_used` clears the source's bit and leaves every other (R410). -/
theorem getLsbD_markUsed (k : IrqSource) (f : BitVec 5) (j : Nat) :
    (f &&& ~~~k.mask).getLsbD j = (f.getLsbD j && !decide (j = k.bit)) := by
  rw [BitVec.getLsbD_and, BitVec.getLsbD_not, k.mask_getLsbD]
  by_cases hj : j < 5
  · simp [hj]
  · simp [BitVec.getLsbD_of_ge f j (by omega)]

/-- Dispatch stores PC's two bytes below SP, the high byte first; outside the CPU and the interrupt controller it changes
nothing else. -/
theorem dispatch_stores (k : IrqSource) (s : State) :
    ∃ u, StoresTwo (s.cpu.sp - 1) s.cpu.pc.hi (s.cpu.sp - 2) s.cpu.pc.lo s u ∧
      dispatch k s =
        { u with
          cpu := (dispatch k s).cpu, cycles := (dispatch k s).cycles,
          irq := { u.irq with ime := false, imeSched := false, iflag := u.irq.iflag &&& ~~~k.mask } } := by
  refine ⟨_, (Pushes.push16 s.cpu.pc s.cpu.pc s s.cycles).store, ?_⟩
  rw [dispatch_eq]
  rfl

/-- Settles O12: dispatch is Push16, then its writes of PC, IME, the schedule and the served request. -/
theorem dispatchEntersHandler : Obligations.DispatchEntersHandler := by
  intro k s
  obtain ⟨u, hu, hd⟩ := dispatch_stores k s
  have hflag : (dispatch k s).irq.iflag = u.irq.iflag &&& ~~~k.mask := by rw [hd]
  have hbit (j : Nat) : (dispatch k s).irq.iflag.getLsbD j = (u.irq.iflag.getLsbD j && !decide (j = k.bit)) := by
    rw [hflag, getLsbD_markUsed]
  refine ⟨?_, ?_, ?_, ?_, by simp [hbit], ⟨u, hu, by rw [hflag]; exact hd, fun j hj => by simp [hbit, hj]⟩,
    serviceInterrupts_of_ready⟩
  · rw [dispatch_eq, k.vector_eq]
  all_goals rw [dispatch_eq]

/-! ### O13: the delay of EI -/

/-- The EI-delay update clears a schedule set before the step and after it (R419). -/
theorem updateState_imeSched (before : Bool) (s : State) :
    (updateState before s).irq.imeSched = (s.irq.imeSched && !before) := by
  unfold updateState
  split
  · rename_i h
    simp [h]
  · rename_i h
    cases before
    · simp
    · simpa using h

theorem fetchExecute_of_instr {s : State} {i : Instr} (h : fetchedInstr s = i) :
    fetchExecute s = exec i (s.setPc (fetchedPc s)) := by rw [fetchExecute, h]

/-- A step whose instruction completes, as IME and its schedule see it: the ticks leave both. -/
theorem step_of_exec {s u : State} (hf : s.fault = none) (hi : (cpuPrelude s).idle = false)
    (h : fetchExecute (cpuPrelude s) = .next u) :
    ∃ t, step s = .next t ∧ t.irq.ime = (u.irq.ime || (s.irq.imeSched && u.irq.imeSched)) ∧
      t.irq.imeSched = (u.irq.imeSched && !s.irq.imeSched) := by
  refine ⟨_, step_of_execute hf ((cpuExecute_of_running hi).trans h), ?_, ?_⟩
  · rw [ppuTick_ime, timerTick_ime, updateState_ime]
  · rw [ppuTick_imeSched, timerTick_imeSched, updateState_imeSched]

theorem cpuPrelude_irq_of_not_ready {s : State} (h : readyInterrupt (wakeChecks s) = none) : (cpuPrelude s).irq = s.irq := by
  have hr : readyInterrupt { wakeChecks s with cycles := 0 } = none := h
  rw [cpuPrelude_eq, serviceInterrupts_of_not_ready hr]
  exact wakeChecks_irq s

/-- An instruction other than DI leaves a schedule that is set, or it is RETI, which enables at once (R420). -/
theorem exec_scheduled {i : Instr} {s t : State} (hdi : i ≠ .di) (hs : s.irq.imeSched = true) (h : exec i s = .next t) :
    t.irq.imeSched = true ∨ (t.irq.ime = true ∧ t.irq.imeSched = false) := by
  cases executes_of_exec h with
  | writes _ hu => exact .inl (hu.kept.imeSched.trans hs)
  | halt => exact .inl hs
  | stop => exact .inl hs
  | di => exact absurd rfl hdi
  | ei => exact .inl rfl
  | reti => exact .inr ⟨rfl, rfl⟩

/-- Settles O13, from what the instruction and the EI-delay update each do to IME and its schedule. -/
theorem eiDelayIsOneInstruction : Obligations.EiDelayIsOneInstruction := by
  intro s hf hi
  refine ⟨fun h => ?ei, fun h => ?di, fun hs hime hdi hlegal => ?other⟩
  case ei =>
    obtain ⟨t, ht, hime, hsched⟩ := step_of_exec hf hi (fetchExecute_of_instr h)
    exact ⟨t, ht, by simpa using hime, by simpa using hsched⟩
  case di =>
    obtain ⟨t, ht, hime, hsched⟩ := step_of_exec hf hi (fetchExecute_of_instr h)
    exact ⟨t, ht, by simpa using hime, by simpa using hsched⟩
  case other =>
    obtain ⟨u, hu, -⟩ := exec_retires hlegal ((cpuPrelude s).setPc (fetchedPc (cpuPrelude s)))
    obtain ⟨t, ht, htime, htsched⟩ := step_of_exec hf hi hu
    have hpre : (cpuPrelude s).irq.imeSched = true := by
      rw [cpuPrelude_irq_of_not_ready (readyInterrupt_of_not_ime (by simpa using hime)), hs]
    rw [hs] at htime htsched
    refine ⟨t, ht, ?_, by simpa using htsched⟩
    rcases exec_scheduled hdi (by simpa using hpre) hu with k | ⟨k, -⟩
    · simpa [k] using htime
    · simpa [k] using htime

/-! ### O34: joypad events -/

/-- A bit goes from 1 to 0 (R461). -/
theorem pressed_iff (old new : BitVec 4) :
    old &&& ~~~new ≠ 0 ↔ ∃ k, k < 4 ∧ old.getLsbD k = true ∧ new.getLsbD k = false := by
  revert old new
  decide

/-- A joypad event writes the input, and the Joypad request on a press (R461). -/
theorem joypadEvent_eq (v : BitVec 4) (s : State) :
    joypadEvent v s =
      { s with
        joypad := { s.joypad with input := v },
        irq := { s.irq with iflag :=
          if ∃ k, k < 4 ∧ s.joypad.input.getLsbD k = true ∧ v.getLsbD k = false then s.irq.iflag ||| 0x10
          else s.irq.iflag } } := by
  simp only [joypadEvent, pressed_iff]
  split <;> rfl

/-- Settles O34: P1 reads the input, and the request is the one that wakes STOP. -/
theorem joypadEventRequestsOnPress : Obligations.JoypadEventRequestsOnPress := by
  refine fun s v => ⟨?_, joypadEvent_eq v s, fun h => ?_⟩
  · rw [joypadEvent_eq]
    exact State.readP1_val _
  · rw [joypadEvent_eq, if_pos h, wakeChecks_eq]
    simp

/-! ### O5: the step runs the decoded instruction -/

/-- The first byte of a well-formed instruction's encoding fixes its length, and the decoder reads the instruction back. -/
theorem encode_eq_cons {i : Instr} (h : i.wf = true) :
    ∃ op tail, encode i = op :: tail ∧ instrLength op = (encode i).length ∧
      decodeOne op (tail.getD 0 0) (tail.getD 1 0) = i := by
  obtain ⟨op, tail, he, hle, hi, hrest⟩ := decode_eq_ok (encodeThenDecode i [] h)
  rw [List.append_nil] at he
  have hge : tail.length ≤ instrLength op - 1 := List.drop_eq_nil_iff.1 hrest.symm
  have := instrLength_bounds op
  exact ⟨op, tail, he, by rw [he, List.length_cons]; omega, hi.symm⟩

/-- Where the bytes at PC are the encoding of a well-formed instruction, the fetch answers it, and PC goes past its bytes. -/
theorem fetchExecute_of_bytes {s : State} {i : Instr} (hwf : i.wf = true)
    (h : ∀ k (hk : k < (encode i).length), memRead (s.cpu.pc + BitVec.ofNat 16 k) s = (encode i)[k]) :
    fetchExecute s = exec i (s.setPc (s.cpu.pc + BitVec.ofNat 16 (encode i).length)) := by
  obtain ⟨op, tail, he, hlen, hdecode⟩ := encode_eq_cons hwf
  have hop : memRead s.cpu.pc s = op := by
    have := h 0 (by simp [he])
    simpa [he] using this
  have hbytes : fetchBytes s = op :: tail := by
    rw [← he, fetchBytes, hop, hlen]
    exact List.ext_getElem (by simp) fun k hk hk' => by simpa using h k hk'
  have hinstr : fetchedInstr s = i := by
    rw [fetchedInstr, hbytes]
    exact hdecode
  rw [fetchExecute_of_instr hinstr, fetchedPc, hop, hlen]

/-- Settles O5: a CPU that is not idle fetches and executes. -/
theorem stepRunsDecodedInstruction : Obligations.StepRunsDecodedInstruction := by
  intro s i hf hi hwf hbytes
  simp only [step, hf, cpuStep, cpuExecute_of_running hi, fetchExecute_of_bytes hwf hbytes]

end Sys2Proof.Machine
end

