-- ==== Sys2Proof/Proofs/Timer.lean ====
section
/-! PROOFS. The statements about the Timer (60_exceptions.md): the quotient and the remainder of an accumulator, and TIMA's
increments as iterations of one event. -/

namespace Sys2Proof.Machine

/-! ### O28: DIV -/

/-- The TIMA part of a tick leaves DIV and its accumulator (R433). -/
theorem timaTick_div_divAcc (c : Nat) (s : State) :
    (timaTick c s).timer.div = s.timer.div ∧ (timaTick c s).timer.divAcc = s.timer.divAcc := by
  unfold timaTick
  split
  · rw [timaIncrements_eq]
    exact ⟨rfl, rfl⟩
  · exact ⟨rfl, rfl⟩

theorem divTick_of_frozen {s : State} (h : s.timer.divFrozen = true) (c : Nat) : divTick c s = s := if_pos h

theorem divTick_of_running {s : State} (h : s.timer.divFrozen = false) (c : Nat) :
    divTick c s =
      { s with timer := { s.timer with
          div := s.timer.div + BitVec.ofNat 8 ((s.timer.divAcc + c) / 256), divAcc := (s.timer.divAcc + c) % 256 } } :=
  if_neg (by simp [h])

/-- Settles O28: the quotient by 256 is added to DIV, the remainder stays in the accumulator. -/
theorem divCountsEvery256Cycles : Obligations.DivCountsEvery256Cycles := by
  intro c s
  obtain ⟨hdiv, hacc⟩ := timaTick_div_divAcc c (divTick c s)
  refine ⟨fun h => ?_, fun h => ⟨(s.timer.divAcc + c) / 256, ?_⟩⟩
  · rw [timerTick, hdiv, hacc, divTick_of_frozen h]
    exact ⟨rfl, rfl⟩
  · rw [timerTick, hdiv, hacc, divTick_of_running h]
    exact ⟨(Nat.div_add_mod' _ 256).symm, Nat.mod_lt _ (by decide), rfl⟩

/-! ### O29: TIMA -/

/-- One increment of TIMA on its value and the Timer request, with TMA for the reload (R432). -/
def timaEvent (tma : Byte) (x : Byte × Bool) : Byte × Bool := if x.1 = 0xFF then (tma, true) else (x.1 + 1, x.2)

/-- TIMA and the Timer request of a state. -/
def State.timaRequest (s : State) : Byte × Bool := (s.timer.tima, s.irq.iflag.getLsbD 2)

/-- Signalling a source sets its bit of IF (R410). -/
theorem getLsbD_signal_same (k : IrqSource) (s : State) : (signal k s).irq.iflag.getLsbD k.bit = true := by
  rw [signal_irq_iflag, BitVec.getLsbD_or, k.mask_getLsbD, decide_eq_true rfl, Bool.or_true]

/-- Signalling a source leaves every other bit of IF (R410). -/
theorem getLsbD_signal_other {k : IrqSource} {j : Nat} (h : j ≠ k.bit) (s : State) :
    (signal k s).irq.iflag.getLsbD j = s.irq.iflag.getLsbD j := by
  rw [signal_irq_iflag, BitVec.getLsbD_or, k.mask_getLsbD, decide_eq_false h, Bool.or_false]

/-- `tima_increment` is the event on TIMA and the request; TMA and every other request stay. -/
theorem timaIncrement_spec (s : State) :
    (timaIncrement s).timaRequest = timaEvent s.timer.tma s.timaRequest ∧
      (timaIncrement s).timer.tma = s.timer.tma ∧
      ∀ j, j ≠ 2 → (timaIncrement s).irq.iflag.getLsbD j = s.irq.iflag.getLsbD j := by
  by_cases h : s.timer.tima = 0xFF
  · rw [timaIncrement, if_pos h]
    rw [timaEvent, if_pos (show s.timaRequest.1 = 0xFF from h)]
    exact ⟨Prod.ext rfl (getLsbD_signal_same .timer _), rfl, fun j hj => getLsbD_signal_other (k := .timer) hj _⟩
  · rw [timaIncrement, if_neg h, timaEvent, if_neg (show ¬s.timaRequest.1 = 0xFF from h)]
    exact ⟨rfl, rfl, fun _ _ => rfl⟩

/-- `n` increments are the event `n` times. -/
theorem timaIncrements_spec (n : Nat) (s : State) :
    (timaIncrements n s).timaRequest = (timaEvent s.timer.tma)^[n] s.timaRequest ∧
      ∀ j, j ≠ 2 → (timaIncrements n s).irq.iflag.getLsbD j = s.irq.iflag.getLsbD j := by
  induction n generalizing s with
  | zero => exact ⟨rfl, fun _ _ => rfl⟩
  | succ n ih =>
    obtain ⟨hevent, htma, hother⟩ := timaIncrement_spec s
    obtain ⟨ihevent, ihother⟩ := ih (timaIncrement s)
    rw [htma, hevent] at ihevent
    exact ⟨ihevent, fun j hj => (ihother j hj).trans (hother j hj)⟩

/-- TIMA counts: it is enabled in TAC and STOP does not freeze it (R431, R434). -/
def TimaRuns (s : State) : Prop :=
  timaEnabled s.timer.tac = true ∧ ¬(s.cpu.stopped = true ∧ s.timer.stopFreezesTima = true)

theorem timaTick_of_not_runs {s : State} (h : ¬TimaRuns s) (c : Nat) : timaTick c s = s := if_neg h

theorem timaTick_of_runs {s : State} (h : TimaRuns s) (c : Nat) :
    timaTick c s =
      timaIncrements ((s.timer.timaAcc + c) / timaPeriod s.timer.tac)
        { s with timer := { s.timer with timaAcc := (s.timer.timaAcc + c) % timaPeriod s.timer.tac } } := if_pos h

theorem timaTick_timaAcc {s : State} (h : TimaRuns s) (c : Nat) :
    (timaTick c s).timer.timaAcc = (s.timer.timaAcc + c) % timaPeriod s.timer.tac := by
  rw [timaTick_of_runs h, timaIncrements_eq]

theorem timaTick_timaRequest {s : State} (h : TimaRuns s) (c : Nat) :
    (timaTick c s).timaRequest =
      (timaEvent s.timer.tma)^[(s.timer.timaAcc + c) / timaPeriod s.timer.tac] s.timaRequest := by
  rw [timaTick_of_runs h]
  exact (timaIncrements_spec _ _).1

theorem timaTick_other_requests (c : Nat) (s : State) {j : Nat} (hj : j ≠ 2) :
    (timaTick c s).irq.iflag.getLsbD j = s.irq.iflag.getLsbD j := by
  by_cases h : TimaRuns s
  · rw [timaTick_of_runs h]
    exact (timaIncrements_spec _ _).2 j hj
  · rw [timaTick_of_not_runs h]

/-- Settles O29: the DIV part changes nothing the TIMA part reads, which makes as many increments as the accumulator holds
periods. -/
theorem timaCountsAndReloads : Obligations.TimaCountsAndReloads := by
  intro c s
  refine ⟨fun htac hstop => ?runs, fun h => ?stands, fun j hj => ?other, fun v => rfl, timerTick_eq c s⟩
  case runs =>
    have h : TimaRuns (divTick c s) := by
      rw [divTick_eq]
      exact ⟨htac, hstop⟩
    have hacc : (timerTick c s).timer.timaAcc = (s.timer.timaAcc + c) % timaPeriod s.timer.tac := by
      rw [timerTick, timaTick_timaAcc h, divTick_eq]
    have hrequest : (timaEvent s.timer.tma)^[(s.timer.timaAcc + c) / timaPeriod s.timer.tac] s.timaRequest =
        (timerTick c s).timaRequest := by
      rw [timerTick, timaTick_timaRequest h, divTick_eq]
      rfl
    rw [← timaPeriod_val, hacc]
    exact ⟨_, (Nat.div_add_mod' _ _).symm, Nat.mod_lt _ (timaPeriod_pos _).1, hrequest⟩
  case stands =>
    have h' : ¬TimaRuns (divTick c s) := by
      rw [divTick_eq]
      exact h
    rw [timerTick, timaTick_of_not_runs h', divTick_eq]
    exact ⟨rfl, rfl, rfl⟩
  case other =>
    rw [timerTick, timaTick_other_requests c _ hj, divTick_eq]

end Sys2Proof.Machine
end

