-- ==== Sys2Proof/Proofs/Ppu.lean ====
section
/-! PROOFS. The statements about the PPU (60_exceptions.md): the transitions as whole-state equations, the loop that makes them,
the pixels of a line, and the lines of a frame. -/

namespace Sys2Proof.Machine

/-! ### O31: the transitions -/

/-- STAT's enables, as a read returns them (R40). -/
theorem getLsbD_readStat (s : State) {k : Nat} (hl : 3 ≤ k) (hu : k ≤ 6) : s.readStat.getLsbD k = statBit s.ppu k := by
  rw [State.readStat, statBit]
  generalize s.ppu.statEn = en
  generalize BitVec.ofBool s.ppu.coincidence = co
  generalize s.ppu.mode.bits = m
  interval_cases k <;> revert en co m <;> decide

/-- A STAT source requests the interrupt where its enable is set (R449). -/
theorem signalStatIf_eq (k : Nat) (s : State) :
    signalStatIf k s =
      { s with irq := { s.irq with iflag := s.irq.iflag ||| (if statBit s.ppu k then 2 else 0) } } := by
  unfold signalStatIf
  split
  · rfl
  · simp

/-- A change of LY compares it with LYC, and requests STAT where they are equal (R445). -/
theorem setLy_eq (v : Byte) (s : State) :
    setLy v s =
      { s with
        ppu := { s.ppu with ly := v, coincidence := decide (v = s.ppu.lyc) },
        irq := { s.irq with
          iflag := s.irq.iflag ||| (if v = s.ppu.lyc ∧ statBit s.ppu 6 = true then 2 else 0) } } := by
  unfold setLy lycCheck
  by_cases h : v = s.ppu.lyc
  · simp only [h, decide_true, if_true, true_and]
    exact signalStatIf_eq 6 _
  · simp [h]

section
variable {s : State}

theorem ppuTransition_oamSearch (h : s.ppu.mode = .oamSearch) :
    ppuTransition s = renderLine s.ppu.ly.toNat { s with ppu := { s.ppu with mode := .transfer } } := by
  simp only [ppuTransition, h]
  rfl

theorem ppuTransition_transfer (h : s.ppu.mode = .transfer) :
    ppuTransition s =
      { s with
        ppu := { s.ppu with mode := .hblank },
        irq := { s.irq with iflag := s.irq.iflag ||| (if statBit s.ppu 3 then 2 else 0) } } := by
  simp only [ppuTransition, h, endTransfer, signalStatIf_eq]
  rfl

/-- After one more line LY is still a visible line. -/
theorem ppuTransition_hblank_visible (h : s.ppu.mode = .hblank) (hly : (s.ppu.ly + 1).toNat ≤ 143) :
    ppuTransition s =
      { s with
        ppu := { s.ppu with
          ly := s.ppu.ly + 1, mode := .oamSearch, coincidence := decide (s.ppu.ly + 1 = s.ppu.lyc) },
        irq := { s.irq with
          iflag := s.irq.iflag ||| (if s.ppu.ly + 1 = s.ppu.lyc ∧ statBit s.ppu 6 = true then 2 else 0) |||
            (if statBit s.ppu 5 then 2 else 0) } } := by
  simp only [ppuTransition, h, endHblank, setLy_eq, if_pos hly, signalStatIf_eq]
  rfl

/-- LY has left the visible lines. -/
theorem ppuTransition_hblank_last (h : s.ppu.mode = .hblank) (hly : 143 < (s.ppu.ly + 1).toNat) :
    ppuTransition s =
      { s with
        ppu := { s.ppu with
          ly := s.ppu.ly + 1, mode := .vblank, coincidence := decide (s.ppu.ly + 1 = s.ppu.lyc) },
        irq := { s.irq with
          iflag := s.irq.iflag ||| (if s.ppu.ly + 1 = s.ppu.lyc ∧ statBit s.ppu 6 = true then 2 else 0) ||| 1 |||
            (if statBit s.ppu 4 then 2 else 0) } } := by
  simp only [ppuTransition, h, endHblank, setLy_eq, if_neg (Nat.not_le.2 hly), signalStatIf_eq]
  rfl

theorem ppuTransition_vblank_last (h : s.ppu.mode = .vblank) (hly : s.ppu.ly = 153) :
    ppuTransition s =
      { s with
        ppu := { s.ppu with ly := 0, mode := .oamSearch, coincidence := decide (0 = s.ppu.lyc) },
        irq := { s.irq with
          iflag := s.irq.iflag ||| (if 0 = s.ppu.lyc ∧ statBit s.ppu 6 = true then 2 else 0) |||
            (if statBit s.ppu 5 then 2 else 0) } } := by
  simp only [ppuTransition, h, endVblankLine, if_pos hly, setLy_eq, signalStatIf_eq]
  rfl

theorem ppuTransition_vblank_inner (h : s.ppu.mode = .vblank) (hly : s.ppu.ly ≠ 153) :
    ppuTransition s =
      { s with
        ppu := { s.ppu with ly := s.ppu.ly + 1, coincidence := decide (s.ppu.ly + 1 = s.ppu.lyc) },
        irq := { s.irq with
          iflag := s.irq.iflag ||| (if s.ppu.ly + 1 = s.ppu.lyc ∧ statBit s.ppu 6 = true then 2 else 0) } } := by
  simp only [ppuTransition, h, endVblankLine, if_neg hly, setLy_eq]

end

/-- The budgets of R450. -/
theorem dotBudgets :
    dotBudget .oamSearch = 80 ∧ dotBudget .transfer = 172 ∧ dotBudget .hblank = 204 ∧ dotBudget .vblank = 456 :=
  ⟨rfl, rfl, rfl, rfl⟩

/-- Settles O31: the transition of each mode, with STAT's enables as a read returns them. -/
theorem ppuTransitions : Obligations.PpuTransitions := by
  refine ⟨dotBudgets, fun s => ?_⟩
  simp only [getLsbD_readStat s (k := 3) (by decide) (by decide), getLsbD_readStat s (k := 4) (by decide) (by decide),
    getLsbD_readStat s (k := 5) (by decide) (by decide), getLsbD_readStat s (k := 6) (by decide) (by decide)]
  exact ⟨ppuTransition_oamSearch, ppuTransition_transfer, ppuTransition_hblank_visible, ppuTransition_hblank_last,
    ppuTransition_vblank_last, ppuTransition_vblank_inner⟩

/-! ### O30: the loop -/

theorem ppuLoop_of_lt {s : State} (h : s.ppu.dots < dotBudget s.ppu.mode) (n : Nat) : ppuLoop n s = s := by
  cases n with
  | zero => rfl
  | succ n => exact if_pos h

theorem ppuLoop_succ {s : State} (h : dotBudget s.ppu.mode ≤ s.ppu.dots) (n : Nat) :
    ppuLoop (n + 1) s = ppuLoop n (ppuRound s) := if_neg (Nat.not_lt.2 h)

theorem ppuRound_dots (s : State) : (ppuRound s).ppu.dots = s.ppu.dots - dotBudget s.ppu.mode := ppuTransition_dots _

/-- A round takes dots away. -/
theorem ppuRound_dots_lt {s : State} (h : dotBudget s.ppu.mode ≤ s.ppu.dots) : (ppuRound s).ppu.dots < s.ppu.dots := by
  have := dotBudget_pos s.ppu.mode
  rw [ppuRound_dots]
  omega

/-- The loop has come to its end: every number of rounds that is at least the dots gives the same state. -/
theorem ppuLoop_eq_of_le {n m : Nat} {s : State} (hn : s.ppu.dots ≤ n) (hm : s.ppu.dots ≤ m) : ppuLoop n s = ppuLoop m s := by
  induction n generalizing m s with
  | zero =>
    have h : s.ppu.dots < dotBudget s.ppu.mode := Nat.lt_of_le_of_lt hn (dotBudget_pos _)
    rw [ppuLoop_of_lt h, ppuLoop_of_lt h]
  | succ n ih =>
    rcases Nat.lt_or_ge s.ppu.dots (dotBudget s.ppu.mode) with h | h
    · rw [ppuLoop_of_lt h, ppuLoop_of_lt h]
    · have hlt := ppuRound_dots_lt h
      obtain ⟨m, rfl⟩ : ∃ k, m = k + 1 := ⟨m - 1, by omega⟩
      rw [ppuLoop_succ h, ppuLoop_succ h]
      exact ih (by omega) (by omega)

/-- After the loop the dots are below the mode's budget (R42). -/
theorem ppuLoop_dots_lt {n : Nat} {s : State} (hn : s.ppu.dots ≤ n) :
    (ppuLoop n s).ppu.dots < dotBudget (ppuLoop n s).ppu.mode := by
  induction n generalizing s with
  | zero => exact Nat.lt_of_le_of_lt hn (dotBudget_pos _)
  | succ n ih =>
    rcases Nat.lt_or_ge s.ppu.dots (dotBudget s.ppu.mode) with h | h
    · rwa [ppuLoop_of_lt h]
    · have hlt := ppuRound_dots_lt h
      rw [ppuLoop_succ h]
      exact ih (by omega)

section
variable {s : State} {c : Nat}

theorem ppuTick_of_off (h : s.ppu.lcdc.getLsbD 7 = false) : ppuTick c s = s := if_neg (Bool.eq_false_iff.1 h)

theorem ppuTick_of_on (h : s.ppu.lcdc.getLsbD 7 = true) :
    ppuTick c s = ppuLoop (s.ppu.dots + c) { s with ppu := { s.ppu with dots := s.ppu.dots + c } } := if_pos h

theorem ppuTick_of_lt (h : s.ppu.lcdc.getLsbD 7 = true) (hc : s.ppu.dots + c < dotBudget s.ppu.mode) :
    ppuTick c s = { s with ppu := { s.ppu with dots := s.ppu.dots + c } } := by
  rw [ppuTick_of_on h]
  exact ppuLoop_of_lt hc _

/-- A tick of no dots is the loop alone. -/
theorem ppuTick_zero (h : s.ppu.lcdc.getLsbD 7 = true) : ppuTick 0 s = ppuLoop s.ppu.dots s := ppuTick_of_on h

/-- A tick adds its dots and runs the loop, which is a tick of no dots. -/
theorem ppuTick_eq_ppuTick_zero (h : s.ppu.lcdc.getLsbD 7 = true) :
    ppuTick c s = ppuTick 0 { s with ppu := { s.ppu with dots := s.ppu.dots + c } } := by
  rw [ppuTick_of_on h]
  exact (ppuTick_zero (s := { s with ppu := { s.ppu with dots := s.ppu.dots + c } }) h).symm

/-- Where the budget is used up the loop makes a round, and goes on. -/
theorem ppuTick_zero_of_ge (h : s.ppu.lcdc.getLsbD 7 = true) (hd : dotBudget s.ppu.mode ≤ s.ppu.dots) :
    ppuTick 0 s = ppuTick 0 (ppuRound s) := by
  have hround : (ppuRound s).ppu.lcdc.getLsbD 7 = true := by
    rw [(PpuTicked.ppuRound s).lcdc]
    exact h
  calc ppuTick 0 s
    _ = ppuLoop s.ppu.dots s := ppuTick_zero h
    _ = ppuLoop (s.ppu.dots + 1) s := ppuLoop_eq_of_le (Nat.le_refl _) (Nat.le_succ _)
    _ = ppuLoop s.ppu.dots (ppuRound s) := ppuLoop_succ hd _
    _ = ppuLoop (ppuRound s).ppu.dots (ppuRound s) :=
      ppuLoop_eq_of_le (Nat.le_of_lt (ppuRound_dots_lt hd)) (Nat.le_refl _)
    _ = ppuTick 0 (ppuRound s) := (ppuTick_zero hround).symm

/-- A tick that uses up the budget makes the transition, and goes on with the dots left. -/
theorem ppuTick_of_ge (h : s.ppu.lcdc.getLsbD 7 = true) (hc : dotBudget s.ppu.mode ≤ s.ppu.dots + c) :
    ppuTick c s =
      ppuTick 0 (ppuTransition { s with ppu := { s.ppu with dots := s.ppu.dots + c - dotBudget s.ppu.mode } }) :=
  (ppuTick_eq_ppuTick_zero h).trans (ppuTick_zero_of_ge h hc)

theorem ppuTick_dots_lt (h : s.ppu.lcdc.getLsbD 7 = true) : (ppuTick c s).ppu.dots < dotBudget (ppuTick c s).ppu.mode := by
  rw [ppuTick_of_on h]
  exact ppuLoop_dots_lt (Nat.le_refl _)

end

/-- Settles O30: a tick is the loop on the dots added, and the loop makes rounds until the dots are below the budget. -/
theorem ppuTickRunsTransitions : Obligations.PpuTickRunsTransitions :=
  ⟨dotBudgets, fun _ _ => ⟨ppuTick_of_off, ppuTick_of_lt, ppuTick_of_ge, ppuTick_dots_lt⟩⟩

/-! ### O32: the pixels of a line -/

/-- A CPU read of VideoRAM is the byte the PPU reads there (R74, R99). -/
theorem memRead_vramAt {n : Nat} (s : State) (hl : 0x8000 ≤ n) (hu : n < 0xA000) :
    memRead (BitVec.ofNat 16 n) s = s.vramAt n := by
  have hn : (BitVec.ofNat 16 n).toNat = n := BitVec.toNat_ofNat .. ▸ Nat.mod_eq_of_lt (by omega)
  simp only [memRead, hn, busOwner_videoRam.2 ⟨hl, hu⟩, State.vramAt]

theorem mapBase_bounds (lcdc : Byte) : 0x9800 ≤ mapBase lcdc ∧ mapBase lcdc ≤ 0x9C00 := by
  unfold mapBase
  split <;> decide

/-- R447's address of a tile, in the integers. -/
theorem tileAddr_val (lcdc idx : Byte) :
    (tileAddr lcdc idx : Int) = if lcdc.getLsbD 4 then 0x8000 + (idx.toNat : Int) * 16 else 0x9000 + idx.toInt * 16 := by
  have := BitVec.le_two_mul_toInt (x := idx)
  unfold tileAddr
  split <;> omega

/-- The 16 bytes of a tile lie in VideoRAM. -/
theorem tileAddr_bounds (lcdc idx : Byte) : 0x8000 ≤ tileAddr lcdc idx ∧ tileAddr lcdc idx < 0x9800 := by
  have hval := tileAddr_val lcdc idx
  have hlo := BitVec.le_two_mul_toInt (x := idx)
  have hhi := BitVec.two_mul_toInt_lt (x := idx)
  have := idx.isLt
  split at hval <;> omega

theorem toNat_ofBool_append (hi lo : Bool) : (BitVec.ofBool hi ++ BitVec.ofBool lo).toNat = 2 * hi.toNat + lo.toNat := by
  cases hi <;> cases lo <;> rfl

section
variable {s : State} {ly : Nat} (hly : ly < 144)
include hly

theorem renderLine_eq :
    renderLine ly s =
      { s with ppu := { s.ppu with
          framebuffer := Sparse.set blankRow s.ppu.framebuffer ly ((List.range 256).map (pixelColour s ly)) } } :=
  if_pos hly

theorem fbRow_renderLine_same (hf : Sparse.wf blankRow s.ppu.framebuffer = true) :
    (renderLine ly s).fbRow ly = (List.range 256).map (pixelColour s ly) := by
  rw [renderLine_eq hly]
  exact Sparse.get_set_same blankRow hf ly _

theorem fbRow_renderLine_other {row : Nat} (h : row ≠ ly) : (renderLine ly s).fbRow row = s.fbRow row := by
  rw [renderLine_eq hly]
  exact Sparse.get_set_other blankRow _ _ h

theorem fbPixel_renderLine (hf : Sparse.wf blankRow s.ppu.framebuffer = true) {x : Nat} (hx : x < 256) :
    (renderLine ly s).fbPixel ly x = pixelColour s ly x := by
  rw [State.fbPixel, fbRow_renderLine_same hly hf]
  simp [hx]

end

/-- Settles O32: the map entry and the two planes' bytes that the renderer reads lie in VideoRAM. -/
theorem renderedLine : Obligations.RenderedLine := by
  intro s ly hly hf
  refine ⟨fun x hx => ?pixel, ?row, fun row hrow => fbRow_renderLine_other hly hrow, ?frame⟩
  case pixel =>
    have hmap := mapBase_bounds s.ppu.lcdc
    have htile := tileAddr_bounds s.ppu.lcdc (s.vramAt (mapBase s.ppu.lcdc + ly / 8 * 32 + x / 8))
    refine ⟨s.vramAt (mapBase s.ppu.lcdc + ly / 8 * 32 + x / 8),
      (tileAddr s.ppu.lcdc (s.vramAt (mapBase s.ppu.lcdc + ly / 8 * 32 + x / 8)) + ly % 8 * 2 : Nat), _, _,
      (memRead_vramAt s (by omega) (by omega)).symm, ?_, rfl, rfl, ?_⟩
    · rw [Nat.cast_add, tileAddr_val]
    · rw [fbPixel_renderLine hly hf hx, ← Nat.cast_add_one, BitVec.ofInt_natCast, BitVec.ofInt_natCast,
        memRead_vramAt s (by omega) (by omega), memRead_vramAt s (by omega) (by omega)]
      exact toNat_ofBool_append _ _
  case row =>
    rw [fbRow_renderLine_same hly hf]
    exact List.map_congr_left fun x hx => (fbPixel_renderLine hly hf (List.mem_range.1 hx)).symm
  case frame =>
    rw [renderLine_eq hly]

/-! ### O33: the lines of a frame -/

/-- Where the PPU is in a frame: the LCD is on, and the mode, LY, the dots and the VBlank request are these. -/
structure Scan (m : PpuMode) (line dots : Nat) (requested : Bool) (t : State) : Prop where
  on : t.ppu.lcdc.getLsbD 7 = true
  mode : t.ppu.mode = m
  ly : t.ppu.ly = BitVec.ofNat 8 line
  dots : t.ppu.dots = dots
  request : t.irq.iflag.getLsbD 0 = requested

/-- A STAT request is no VBlank request. -/
theorem getLsbD_or_stat (f : BitVec 5) (p : Prop) [Decidable p] : (f ||| if p then 2 else 0).getLsbD 0 = f.getLsbD 0 := by
  split <;> simp

section
variable {l d : Nat} {v : Bool} {m : PpuMode} {t : State}

theorem Scan.renderLine (h : Scan m l d v t) (ly : Nat) : Scan m l d v (renderLine ly t) := by
  unfold Machine.renderLine
  split
  · exact ⟨h.on, h.mode, h.ly, h.dots, h.request⟩
  · exact h

/-- A line counted in 0 to 153 is LY's value. -/
theorem Scan.ly_toNat (h : Scan m l d v t) (hl : l < 154) : t.ppu.ly.toNat = l := by
  rw [h.ly, BitVec.toNat_ofNat]
  omega

theorem Scan.ly_add_one (h : Scan m l d v t) : t.ppu.ly + 1 = BitVec.ofNat 8 (l + 1) := by
  rw [h.ly, BitVec.ofNat_add]
  rfl

theorem Scan.endOamSearch (h : Scan .oamSearch l d v t) : Scan .transfer l d v (ppuTransition t) := by
  rw [ppuTransition_oamSearch h.mode]
  have hmode : Scan .transfer l d v { t with ppu := { t.ppu with mode := .transfer } } :=
    ⟨h.on, rfl, h.ly, h.dots, h.request⟩
  exact hmode.renderLine _

theorem Scan.endTransfer (h : Scan .transfer l d v t) : Scan .hblank l d v (ppuTransition t) := by
  rw [ppuTransition_transfer h.mode]
  exact ⟨h.on, rfl, h.ly, h.dots, (getLsbD_or_stat ..).trans h.request⟩

theorem Scan.endHblank_visible (h : Scan .hblank l d v t) (hl : l < 143) :
    Scan .oamSearch (l + 1) d v (ppuTransition t) := by
  have hly : (t.ppu.ly + 1).toNat ≤ 143 := by
    rw [h.ly_add_one, BitVec.toNat_ofNat]
    omega
  rw [ppuTransition_hblank_visible h.mode hly]
  exact ⟨h.on, rfl, h.ly_add_one, h.dots, (getLsbD_or_stat ..).trans ((getLsbD_or_stat ..).trans h.request)⟩

/-- The one transition that requests VBlank. -/
theorem Scan.endHblank_last (h : Scan .hblank 143 d v t) : Scan .vblank 144 d true (ppuTransition t) := by
  have hly : 143 < (t.ppu.ly + 1).toNat := by
    rw [h.ly_add_one]
    decide
  rw [ppuTransition_hblank_last h.mode hly]
  refine ⟨h.on, rfl, h.ly_add_one, h.dots, (getLsbD_or_stat ..).trans ?_⟩
  rw [BitVec.getLsbD_or]
  exact Bool.or_true _

theorem Scan.endVblankLine_inner (h : Scan .vblank l d v t) (hl : l < 153) : Scan .vblank (l + 1) d v (ppuTransition t) := by
  have hne : t.ppu.ly ≠ 153 := by
    intro e
    have hl153 : t.ppu.ly.toNat = 153 := congrArg BitVec.toNat e
    rw [h.ly_toNat (by omega)] at hl153
    omega
  rw [ppuTransition_vblank_inner h.mode hne]
  exact ⟨h.on, h.mode, h.ly_add_one, h.dots, (getLsbD_or_stat ..).trans h.request⟩

theorem Scan.endVblankLine_last (h : Scan .vblank 153 d v t) : Scan .oamSearch 0 d v (ppuTransition t) := by
  rw [ppuTransition_vblank_last h.mode h.ly]
  exact ⟨h.on, rfl, rfl, h.dots, (getLsbD_or_stat ..).trans ((getLsbD_or_stat ..).trans h.request)⟩

/-- Taking the budget off leaves the dots above it. -/
theorem Scan.takeBudget (h : Scan m l (d + dotBudget m) v t) :
    Scan m l d v { t with ppu := { t.ppu with dots := t.ppu.dots - dotBudget t.ppu.mode } } :=
  ⟨h.on, h.mode, h.ly, by rw [h.dots, h.mode, Nat.add_sub_cancel], h.request⟩

end

/-- The tick that answers `u` comes to this scan, and goes on with its dots. -/
def ComesTo (u : State) (m : PpuMode) (line dots : Nat) (requested : Bool) : Prop :=
  ∃ t, Scan m line dots requested t ∧ u = ppuTick 0 t

section
variable {u : State} {l d n : Nat} {v v' : Bool} {m m' : PpuMode}

theorem ComesTo.dots_eq {d' : Nat} (h : ComesTo u m l d v) (e : d = d') : ComesTo u m l d' v := e ▸ h

/-- Where the dots reach the budget the tick comes to what the mode's transition makes of the rest. -/
theorem ComesTo.round {l' : Nat} (h : ComesTo u m l (d + dotBudget m) v)
    (step : ∀ {t}, Scan m l d v t → Scan m' l' d v' (ppuTransition t)) : ComesTo u m' l' d v' := by
  obtain ⟨t, ht, rfl⟩ := h
  have hd : dotBudget t.ppu.mode ≤ t.ppu.dots := by
    rw [ht.dots, ht.mode]
    exact Nat.le_add_left ..
  exact ⟨ppuRound t, step ht.takeBudget, ppuTick_zero_of_ge ht.on hd⟩

/-- Where they do not, the tick ends. -/
theorem ComesTo.scan (h : ComesTo u m l d v) (hd : d < dotBudget m) : Scan m l d v u := by
  obtain ⟨t, ht, rfl⟩ := h
  have hlt : t.ppu.dots + 0 < dotBudget t.ppu.mode := by
    rw [ht.dots, ht.mode]
    exact hd
  rw [ppuTick_of_lt ht.on hlt]
  exact ⟨ht.on, ht.mode, ht.ly, ht.dots, ht.request⟩

theorem ComesTo.transfer (h : ComesTo u .oamSearch l (d + 80) v) : ComesTo u .transfer l d v := h.round Scan.endOamSearch

theorem ComesTo.hblank (h : ComesTo u .oamSearch l (d + 252) v) : ComesTo u .hblank l d v :=
  (ComesTo.transfer (d := d + 172) h).round Scan.endTransfer

/-- A visible line takes 456 dots. -/
theorem ComesTo.nextLine (h : ComesTo u .oamSearch l (d + 456) v) (hl : l < 143) : ComesTo u .oamSearch (l + 1) d v :=
  (ComesTo.hblank (d := d + 204) h).round fun ht => ht.endHblank_visible hl

theorem ComesTo.vblank (h : ComesTo u .oamSearch 143 (d + 456) v) : ComesTo u .vblank 144 d true :=
  (ComesTo.hblank (d := d + 204) h).round Scan.endHblank_last

theorem ComesTo.visibleLine (h : ComesTo u .oamSearch 0 (d + 456 * n) v) (hn : n ≤ 143) : ComesTo u .oamSearch n d v := by
  induction n generalizing d with
  | zero => exact h
  | succ n ih => exact (ih (h.dots_eq (by omega)) (by omega)).nextLine (by omega)

theorem ComesTo.vblankLine (h : ComesTo u .vblank 144 (d + 456 * n) v) (hn : n ≤ 9) : ComesTo u .vblank (144 + n) d v := by
  induction n generalizing d with
  | zero => exact h
  | succ n ih =>
    have hline := ih (d := d + 456) (h.dots_eq (by omega)) (by omega)
    exact hline.round fun ht => ht.endVblankLine_inner (by omega)

/-- Within a visible line the PPU is in one of its three modes, on that line. -/
theorem ComesTo.scan_visibleLine (h : ComesTo u .oamSearch l d v) (hd : d < 456) :
    ∃ m dots, m ≠ .vblank ∧ Scan m l dots v u := by
  rcases Nat.lt_or_ge d 80 with h80 | h80
  · exact ⟨.oamSearch, _, nofun, h.scan h80⟩
  rcases Nat.lt_or_ge d 252 with h252 | h252
  · obtain ⟨k, rfl⟩ := Nat.exists_eq_add_of_le' h80
    exact ⟨.transfer, k, nofun, h.transfer.scan (show k < 172 by omega)⟩
  · obtain ⟨k, rfl⟩ := Nat.exists_eq_add_of_le' h252
    exact ⟨.hblank, k, nofun, h.hblank.scan (show k < 204 by omega)⟩

end

/-- From the start of a frame a tick comes to line 0 with all its dots. -/
theorem comesTo_start {s : State} (hon : s.ppu.lcdc.getLsbD 7 = true) (hmode : s.ppu.mode = .oamSearch)
    (hdots : s.ppu.dots = 0) (hly : s.ppu.ly = 0) (c : Nat) :
    ComesTo (ppuTick c s) .oamSearch 0 c (s.irq.iflag.getLsbD 0) := by
  have hc : s.ppu.dots + c = c := by rw [hdots, Nat.zero_add]
  exact ⟨{ s with ppu := { s.ppu with dots := s.ppu.dots + c } }, ⟨hon, hmode, hly, hc, rfl⟩, ppuTick_eq_ppuTick_zero hon⟩

/-- Settles O33: the tick comes to line after line, 456 dots each, and requests VBlank on the way from line 143 alone. -/
theorem frameTakes70224Dots : Obligations.FrameTakes70224Dots := by
  intro s hon hmode hdots hly
  have start := comesTo_start hon hmode hdots hly
  have vblank (d : Nat) : ComesTo (ppuTick (d + 65664) s) .vblank 144 d true :=
    (((start _).dots_eq (by omega : d + 65664 = d + 456 + 456 * 143)).visibleLine (Nat.le_refl _)).vblank
  refine ⟨fun c hc => ?visible, fun c hl hu => ?vblank, ?next⟩
  case visible =>
    have hline := ((start c).dots_eq (Nat.mod_add_div c 456).symm).visibleLine (by omega)
    obtain ⟨m, d, hm, h⟩ := hline.scan_visibleLine (Nat.mod_lt _ (by decide))
    exact ⟨h.mode ▸ hm, h.ly, h.request⟩
  case vblank =>
    obtain ⟨d, rfl⟩ := Nat.exists_eq_add_of_le' hl
    have hline := ((vblank d).dots_eq (Nat.mod_add_div d 456).symm).vblankLine (by omega)
    have h := hline.scan (Nat.mod_lt _ (by decide))
    have hl : (d + 65664) / 456 = 144 + d / 456 := by omega
    exact ⟨h.mode, hl ▸ h.ly, h.request⟩
  case next =>
    have h := ((ComesTo.vblankLine (n := 9) (d := 456) (vblank 4560) (Nat.le_refl _)).round Scan.endVblankLine_last).scan
      (dotBudget_pos _)
    exact ⟨h.mode, h.dots, h.ly, h.request⟩

end Sys2Proof.Machine
end

