-- ==== Sys2Proof/Proofs/Reset.lean ====
section
/-! PROOFS. The statements about reset (70_reset_and_hazards.md): it meets the invariant, and R501's value of every piece of
state. -/

namespace Sys2Proof.Machine

/-! ### O16: the reset state meets the invariant -/

/-- Settles O16: the default arguments draw empty arrays, which are canonical, and insert no cartridge. -/
theorem resetMeetsInvariant : Obligations.ResetMeetsInvariant :=
  .powerOn rfl rfl rfl fun _ h => by cases h

/-! ### O18: the reset values -/

/-- A framebuffer that lists no row is 0 everywhere (R43). -/
theorem fbPixel_of_framebuffer_nil {s : State} (h : s.ppu.framebuffer = []) (row x : Nat) : s.fbPixel row x = 0 := by
  have hrow : s.fbRow row = blankRow := by rw [State.fbRow, h, Sparse.get_nil]
  rw [State.fbPixel, hrow]
  exact List.getElem?_getD_replicate_default_eq _ _ _

/-- Reset gives an inserted cartridge the MBC1 registers of R501 and keeps its other fields. -/
theorem State.powerOn_cartridge {p : PowerOn} {c : Cartridge} (h : p.cartridge = some c) :
    (State.powerOn p).cartridge = some c.reset :=
  congrArg (Option.map Cartridge.reset) h

section
variable (p : PowerOn)

/-- P1 at reset: the select field 0, nothing pressed, and the two bits that always read 1 (R46). -/
theorem memRead_powerOn_p1 : memRead 0xFF00 (State.powerOn p) = 0xCF :=
  calc memRead 0xFF00 (State.powerOn p)
    _ = 0xC0 ||| ((0 : BitVec 2).zeroExtend 8 <<< 4) ||| (0xF : BitVec 4).zeroExtend 8 := (State.powerOn p).readP1_val
    _ = 0xCF := by decide

/-- TAC at reset: its three bits 0, and the five bits that always read 1 (R35). -/
theorem memRead_powerOn_tac : memRead 0xFF07 (State.powerOn p) = 0xF8 :=
  calc memRead 0xFF07 (State.powerOn p)
    _ = 0xF8 ||| (0 : BitVec 3).zeroExtend 8 := (State.powerOn p).readIo_tac
    _ = 0xF8 := by decide

/-- IF at reset: the VBlank request, and the three bits that always read 1 (R34). -/
theorem memRead_powerOn_iflag : memRead 0xFF0F (State.powerOn p) = 0xE1 :=
  calc memRead 0xFF0F (State.powerOn p)
    _ = 0xE0 ||| (0x01 : BitVec 5).zeroExtend 8 := (State.powerOn p).readIo_iflag
    _ = 0xE1 := by decide

/-- STAT at reset: no enable, coincidence, mode 2, and the bit that always reads 1 (R40, R42). -/
theorem memRead_powerOn_stat : memRead 0xFF41 (State.powerOn p) = 0x86 :=
  calc memRead 0xFF41 (State.powerOn p)
    _ = 0x80 ||| ((0 : BitVec 4).zeroExtend 8 <<< 3) ||| 4 ||| PpuMode.oamSearch.bits.zeroExtend 8 :=
      (State.powerOn p).readStat_val
    _ = 0x86 := by decide

end

/-- Settles O18: P1, TAC, IF and STAT read as a concatenation of fields; every other register reads as the field that holds it,
which reset sets to a constant or to the argument the spec leaves open. -/
theorem resetValues : Obligations.ResetValues := by
  refine ⟨fun p => ⟨⟨rfl, rfl⟩, ⟨rfl, rfl⟩, ⟨memRead_powerOn_iflag p, rfl⟩, ⟨rfl, rfl, rfl, memRead_powerOn_tac p⟩,
    ⟨rfl, rfl, rfl⟩, ⟨rfl, memRead_powerOn_stat p, ?lcd⟩, ⟨rfl, rfl, rfl⟩, fbPixel_of_framebuffer_nil rfl, ⟨rfl, rfl, rfl⟩,
    ⟨memRead_powerOn_p1 p, rfl⟩, ⟨rfl, rfl, rfl⟩, fun _ => State.powerOn_cartridge, rfl⟩, ?registers⟩
  case lcd => exact ⟨rfl, rfl, rfl, rfl, rfl, rfl, rfl, rfl, rfl, rfl⟩
  case registers => exact ⟨rfl, rfl, rfl, rfl, rfl, rfl, rfl, rfl, rfl, rfl⟩

end Sys2Proof.Machine
end
